-- ==== Sys2Proof/Word.lean ====
section
/-! DEFINITION. The word types of the package and their plainest arithmetic. -/

namespace Sys2Proof

/-- One byte. -/
abbrev Byte := BitVec 8

/-- A 64-bit word: general registers, address operands, 64-bit registers (R77, R110). -/
abbrev Word := BitVec 64

/-- A 64-byte line of scratchpad or cluster memory, a queue word's DATA, a cell's payload
(R92, R147, R276). Byte `i` is bits `8i` to `8i + 7` (R6). -/
abbrev Line := BitVec 512

/-- A 256-byte vector register or granule (R77, R118). Byte `i` is bits `8i` to `8i + 7` (R6). -/
abbrev Block := BitVec 2048

/-- A 16-bit status code (R11). -/
abbrev Code := BitVec 16

/-- A device number, 14 bits, w:z:y:x (R5). -/
abbrev DeviceNo := BitVec 14

/-- A device-local address or a space offset, 40 bits (R107, R110). -/
abbrev Addr40 := BitVec 40

/-- A general or vector register's number (R77). -/
abbrev Reg := Fin 32

/-- A partition number p (R13, R17). -/
abbrev PartNo := Fin 4

/-- A sparse map from numbers to values: listed keys strictly rising, and no listed value equal to
the one an unlisted key reads as. -/
abbrev Table (α : Type) := List (Nat × α)

/-- A byte memory: the listed cells, addresses strictly rising, no zero byte listed. -/
abbrev Mem := List Host.Cell

end Sys2Proof
end

