-- ==== Sys2Proof/Syntax.lean ====
section
/-! DEFINITION. The commands of the block: one constructor for each row of the table of operations and
events, with the contents that the row's rule gives the event. -/

namespace Sys2Proof

/-- What the hardware of a core did at an instruction's issue besides the instruction (R102, R138). -/
inductive CoreHw where
  | none
  /-- The instruction word is reserved, or its cache line failed its protection. -/
  | encoding
  /-- An uncorrectable error in a general register or a descriptor slot. -/
  | state
  /-- A corrected error in the instruction cache, a register file or a descriptor slot, or in a line that the
  instruction reads. -/
  | corrected
  deriving DecidableEq, Repr

/-- The core that issues an instruction: partition, logical core number, and what its hardware did. -/
structure Issue where
  part : PartNo
  core : Fin 1024
  hw : CoreHw := .none
  deriving DecidableEq, Repr

/-- A fabric packet, or a transfer between local interfaces in the same form (R275 to R277). The
descriptor is the head cell's payload; each data cell carries 64 bytes and its poison tag. -/
structure Pkt where
  dest : DeviceNo
  dpart : BitVec 2
  cls : BitVec 2
  type : BitVec 3
  epoch : Bool := false
  mark : Bool := false
  close : Bool := false
  detour : Bool := false
  src : DeviceNo
  spart : BitVec 2
  endpoint : BitVec 16 := 0
  desc : Line := 0
  data : List (Line × Bool) := []
  deriving DecidableEq, Repr

/-- The unit that sends a request on the mesh: a source of R119. -/
inductive MeshSrc where
  | core (part : PartNo) (core : Fin 1024)
  | dma (cluster : Fin 32) (ch : Fin 16)
  /-- A fabric port's local interface (R22, R119, R295). -/
  | fabric (port : Fin 20)
  | host (b : Bool)
  | queue (part : PartNo) (core : Fin 1024) (q : Fin 8)
  | cp
  deriving DecidableEq, Repr

/-- What the performing unit's acknowledgement ends (R119, R151, R171, R294). -/
inductive MeshAck where
  | none
  /-- A request of a PUT or RADD within the partition: where it issued, its operand, its place in program
  order (R27, R103). -/
  | put (pc addr order : BitVec 64)
  /-- A piece of a DMA channel's current descriptor. -/
  | piece (cluster : Fin 32) (ch : Fin 16) (seq : Nat)
  /-- A request that arrived in a packet: where the WACK goes (R294, R301). -/
  | packet (dest : DeviceNo) (dpart : BitVec 2) (endpoint : BitVec 16) (reply : BitVec 32) (echo : Bool)
  /-- The slot of a host-consumed queue word (R160). -/
  | hostWord (slot : Nat)
  deriving DecidableEq, Repr

/-- A write or RADD request on the mesh: at most one granule of stacked memory (SPACE 0) or one line of
scratchpad (1) or cluster memory (2) of the partition that its tag names (R27, R110, R118). -/
structure MeshReq where
  src : MeshSrc
  part : PartNo
  space : BitVec 2
  /-- Logical core (SPACE 1) or logical cluster (SPACE 2). -/
  unit : Nat := 0
  /-- Byte offset in the space. -/
  addr : Nat
  radd : Bool := false
  bytes : List Byte
  poison : Bool := false
  ack : MeshAck := .none
  deriving DecidableEq, Repr

/-- A cell of 80 bytes but for its trailer: its packet header, its place, its payload (R275, R276). -/
structure Cell where
  /-- The 64-bit header (R276). -/
  header : BitVec 64
  payload : Line
  deriving DecidableEq, Repr

/-- A cell as a port receives it (R251, R260): its 80 bytes, and, for each block of four codewords that the FEC has decoded since
the cell before, the numbers of the symbols received in error, 0 to 2,175 in the order of the port's symbol stream. -/
structure LinkRx where
  bits : BitVec 640
  fec : List (List Nat) := []
  deriving DecidableEq, Repr

/-- The content of an IDENT (R256). -/
structure Ident where
  kind : BitVec 2
  device : DeviceNo
  port : BitVec 5
  role : BitVec 5
  verMin : BitVec 8
  verMax : BitVec 8
  coordValid : Bool
  handover : Bool
  rxRetired : BitVec 3
  expect : DeviceNo
  expectRole : BitVec 5
  serialTag : BitVec 32
  farDevice : DeviceNo := 0
  farRole : BitVec 5 := 0
  deriving DecidableEq, Repr

/-- Why a port fails on its own (R265). -/
inductive PortFailCause where
  | alignment | silence | replayLimit
  deriving DecidableEq, Repr

/-- A management message's header and body (R437, R438). -/
structure MgmtHdr where
  /-- Arrived over I3C rather than Ethernet (R434). -/
  i3c : Bool
  /-- The header's LENGTH agrees with the body and its RSVD bits are zero (R438). -/
  formOk : Bool
  /-- Key slot 0 to 3, or 7 for none (R438). -/
  key : BitVec 3
  counter : BitVec 64
  destTag : BitVec 32
  tag : BitVec 32
  /-- The signature verifies under the key that KEY names (R438, R439); of an unsigned IMAGE_DATA, its source
  address is that of the open IMAGE_BEGIN (R457). -/
  sigOk : Bool
  /-- The body is as long as its type's fields need (R438, R440). -/
  bodyOk : Bool := true
  deriving DecidableEq, Repr

/-- One reading of an analogue sensor: absent or out of range, or a value. -/
abbrev Reading := Option Nat

/-- The stored bits of an SRAM line that are wrong when it is read: bits 0 to 623 of its words, and the copies 624 to
626 of its poison bit (R137). -/
abbrev LineErrs := List (Fin 627)

/-- A mailbox: of the chip block or of a partition block (R190). -/
structure MbId where
  chip : Bool
  part : PartNo
  n : Fin 64
  deriving DecidableEq, Repr

/-- Symbol errors of a codeword: each a symbol's place and its difference (R121, R122). -/
abbrev SymErrs := List (Nat × Nat)

/-- The ways a PCI Express port's function is reset (R180). -/
inductive PortResetKind where
  | flr | hot | linkDown | perst
  deriving DecidableEq, Repr

/-- Where a packet stands before the switch moves it: waiting at a local interface, or in a receive
pool: port, pool (0 normal, 1 closure, 2 detour), class (R279). -/
inductive PktPlace where
  | inject
  | pool (port : Fin 20) (pool : Fin 3) (cls : Fin 4)
  deriving DecidableEq, Repr

/-- The capabilities that R178 names, those that it excludes among them. -/
inductive PciCap where
  | msix | msi | aer | resizableBar | doe | mctp | flr | aspmL1
  | sriov | ats | pri | pasid | acs | aspmL0s | l1PmSubstates | expansionRom
  deriving DecidableEq, Repr

/-- What a host reads of a function's configuration space (R178). -/
inductive ConfigItem where
  /-- Vendor ID, Device ID, Revision ID and Class Code. -/
  | identity
  /-- BAR `n`'s kind and size. -/
  | bar (n : Fin 6)
  /-- Whether a capability stands in the function's lists. -/
  | capability (c : PciCap)
  deriving DecidableEq, Repr

/-- A host's access to BAR0 or to its port's configuration space (R178 to R182, R196). -/
inductive HostAccess where
  | write (offset width value : Nat)
  | read (offset width : Nat)
  | config (item : ConfigItem)
  /-- Resizable BAR: BAR2 becomes 2^`code` × 64 GiB, `code` 0 to 4 (R178). -/
  | bar2Size (code : Fin 5)
  /-- Bus Master Enable; MSI-X Enable and Function Mask. -/
  | msi (busMaster enable mask : Bool)
  deriving DecidableEq, Repr

/-- What the counters of a 4 µs window hold (R336, R338). -/
structure Counts where
  /-- The 48 activity counters of each device-wide cluster. -/
  clusters : List (List Nat) := []
  /-- Granules that each stack moved, by the partition that their tag names. -/
  granules : List (List Nat) := []
  /-- Cells that each port sent and received, by the partition of their local source or destination; then the transit cells. -/
  cells : List (List Nat) := []
  deriving DecidableEq, Repr

/-- The terms of a window's estimate: energies in picojoules before the correction K (R336, R338). -/
structure Activity where
  /-- Matrix engines, per device-wide cluster. -/
  engine : List Nat := []
  /-- The other counters of the compute account, per device-wide cluster. -/
  other : List Nat := []
  /-- Leakage, per device-wide cluster. -/
  leak : List Nat := []
  /-- Stack terms by the partition that the traffic's tag names. -/
  memory : List Nat := []
  /-- Port terms by the partition of each cell's local source or destination. -/
  fabric : List Nat := []
  /-- Transit cells, clocking, mesh, CP complex, PCIe controllers, bedrock domain. -/
  shared : Nat := 0
  deriving DecidableEq, Repr

/-- A temperature in units of 0.25 °C, or none for a failed conversion (R356). -/
abbrev Temp := Option Int

/-- What woke the package or a partition (R381). -/
inductive WakeSrc where
  | wake0 | wake1 | pcieA | pcieB | management | deadline
  | work (part : PartNo)
  deriving DecidableEq, Repr

/-- What a bring-up stage found when it ended (R385, R386, R390 to R392). -/
inductive StageResult where
  | s0
  /-- CP-A's ROM self-test passed. -/
  | s1 (cpaOk : Bool)
  /-- Every fuse word passed its check. -/
  | s2 (fusesOk : Bool)
  /-- Every PLL locked; some safety chain reads 100.0 °C or more. -/
  | s3 (pllOk hot : Bool)
  /-- Stacks started from saved settings, stacks that failed training or their fill, and the row repairs:
  entries of the field defect log repaired. -/
  | s4 (saved failed : BitVec 12) (repaired : List (List Nat))
  /-- Core slots that failed their test, as device-wide cluster and slot, and clusters whose shared units
  failed. -/
  | s5 (slots : List (Nat × Nat)) (clusters : List Nat)
  | s6
  | s7 (upA upB : Bool)
  | s8
  | s9
  deriving DecidableEq, Repr

/-- The three electrical monitors (R429). -/
inductive ElecMonitor where
  | overcurrent | coreOv
  | railOv (rail : Fin 11)
  deriving DecidableEq, Repr

/-- Where an uncorrectable bedrock SRAM error stands (R404). -/
inductive BedrockLine where
  | journal (slot : Fin 4096)
  | register (offset : BitVec 19)
  | retention (offset : BitVec 19)
  deriving DecidableEq, Repr

/-- A JTAG instruction (R435). -/
inductive JtagOp where
  | idcode | bypass | sample | extest | extestPulse | extestTrain | debug
  deriving DecidableEq, Repr

/-- An SPDM request (R447): the request codes that the device supports, and any other. -/
inductive SpdmReq where
  | getVersion | getCapabilities | negotiateAlgorithms
  | getDigests
  | getCertificate (slot : BitVec 4)
  | challenge (slot : BitVec 4) (nonce : BitVec 256)
  | getMeasurements (index : BitVec 8) (nonce : BitVec 256)
  | other (code : BitVec 8)
  deriving DecidableEq, Repr

/-- The transports of SPDM connections (R447): DOE of a port, MCTP over PCIe of a port, or I3C. -/
inductive SpdmPath where
  | doe (b : Bool)
  | mctp (b : Bool)
  | i3c
  deriving DecidableEq, Repr

/-- The commands: one constructor for each row of the table, in its order. -/
inductive Instr where
  /-- NOP (R81): Core instruction that does nothing. -/
  | nop (i : Issue) (rsvd : BitVec 26)
  /-- ADD (R82): ALU function: g[d] = g[a] + g[b], wrapping modulo 2^64. -/
  | add (i : Issue) (d a b : Reg)
  /-- SUB (R82): ALU function: g[d] = g[a] - g[b], wrapping modulo 2^64. -/
  | sub (i : Issue) (d a b : Reg)
  /-- AND (R82): ALU function: bitwise AND of g[a] and g[b]. -/
  | and (i : Issue) (d a b : Reg)
  /-- OR (R82): ALU function: bitwise OR of g[a] and g[b]. -/
  | or (i : Issue) (d a b : Reg)
  /-- XOR (R82): ALU function: bitwise XOR of g[a] and g[b]. -/
  | xor (i : Issue) (d a b : Reg)
  /-- SHL (R82): ALU function: shift g[a] left by g[b][5:0]. -/
  | shl (i : Issue) (d a b : Reg)
  /-- SHR (R82): ALU function: logical right shift of g[a] by g[b][5:0]. -/
  | shr (i : Issue) (d a b : Reg)
  /-- SAR (R82): ALU function: arithmetic right shift of g[a] by g[b][5:0]. -/
  | sar (i : Issue) (d a b : Reg)
  /-- MUL (R82): ALU function: low 64 bits of the product of g[a] and g[b]. -/
  | mul (i : Issue) (d a b : Reg)
  /-- MULHU (R82): ALU function: high 64 bits of the unsigned product of g[a] and g[b]. -/
  | mulhu (i : Issue) (d a b : Reg)
  /-- SLT (R82): ALU function: 1 if g[a] < g[b] signed, else 0. -/
  | slt (i : Issue) (d a b : Reg)
  /-- SLTU (R82): ALU function: 1 if g[a] < g[b] unsigned, else 0. -/
  | sltu (i : Issue) (d a b : Reg)
  /-- ADDI (R81): Adds a sign-extended immediate to g[a] and writes the sum to g[d]. -/
  | addi (i : Issue) (d a : Reg) (imm : BitVec 16)
  /-- ANDI (R81): ANDs g[a] with a zero-extended immediate. -/
  | andi (i : Issue) (d a : Reg) (imm : BitVec 16)
  /-- ORI (R81): ORs g[a] with a zero-extended immediate. -/
  | ori (i : Issue) (d a : Reg) (imm : BitVec 16)
  /-- SHLI (R81): Shifts g[a] left by an immediate amount. -/
  | shli (i : Issue) (d a : Reg) (imm : BitVec 16)
  /-- LUI (R81): Loads a sign-extended immediate shifted left by 16 into g[d]. -/
  | lui (i : Issue) (d : Reg) (imm : BitVec 16)
  /-- LD (R81): Loads 8 aligned bytes from a core-local address into g[d]. -/
  | ld (i : Issue) (d a : Reg) (imm : BitVec 16)
  /-- ST (R81): Stores g[d] as 8 aligned bytes at a core-local address. -/
  | st (i : Issue) (d a : Reg) (imm : BitVec 16)
  /-- BEQ (R81): Branches if g[a] equals g[b], with the target checked under R77. -/
  | beq (i : Issue) (a b : Reg) (imm : BitVec 16)
  /-- BNE (R81): Branches if g[a] differs from g[b]. -/
  | bne (i : Issue) (a b : Reg) (imm : BitVec 16)
  /-- BLT (R81): Branches if g[a] < g[b], signed. -/
  | blt (i : Issue) (a b : Reg) (imm : BitVec 16)
  /-- BLTU (R81): Branches if g[a] < g[b], unsigned. -/
  | bltu (i : Issue) (a b : Reg) (imm : BitVec 16)
  /-- JAL (R81): Writes the link address and jumps by a PC-relative offset. -/
  | jal (i : Issue) (d : Reg) (offset : BitVec 21)
  /-- JR (R81): Writes the link address and jumps to g[a]. -/
  | jr (i : Issue) (d a : Reg) (rsvd : BitVec 16)
  /-- MDLOAD (R81): Copies a 128-byte matrix descriptor into a descriptor slot. -/
  | mdload (i : Issue) (slot : Fin 8) (rsvd : BitVec 2) (a : Reg) (imm : BitVec 16)
  /-- MMA (R86): Checks the slot's descriptor and issues the matrix operation, or refuses it with a fault. -/
  | mma (i : Issue) (slot : Fin 8) (rsvd : BitVec 23)
  /-- MATRIX_OPERATION_COMPLETE (R84): A matrix operation writes back D, sets flags and completes in issue order, releasing held instructions. -/
  | matrixOperationComplete (part : PartNo) (core : Fin 1024)
  /-- WAITM (R81): Waits until at most the given number of matrix operations are outstanding. -/
  | waitm (i : Issue) (rsvd : BitVec 10) (imm : BitVec 16)
  /-- VADD (R83): Lane-wise FP32 addition. -/
  | vadd (i : Issue) (vd va vb : Reg)
  /-- VSUB (R83): Lane-wise FP32 subtraction. -/
  | vsub (i : Issue) (vd va vb : Reg)
  /-- VMUL (R83): Lane-wise FP32 multiplication. -/
  | vmul (i : Issue) (vd va vb : Reg)
  /-- VFMA (R83): Lane-wise fused multiply-add, rounded once. -/
  | vfma (i : Issue) (vd va vb vc : Reg)
  /-- VMIN (R83): Lane-wise IEEE 754 minimum. -/
  | vmin (i : Issue) (vd va vb : Reg)
  /-- VMAX (R83): Lane-wise IEEE 754 maximum. -/
  | vmax (i : Issue) (vd va vb : Reg)
  /-- VABS (R83): Lane-wise magnitude. -/
  | vabs (i : Issue) (vd va : Reg)
  /-- VNEG (R83): Lane-wise sign inversion. -/
  | vneg (i : Issue) (vd va : Reg)
  /-- VRCP (R89): Lane-wise correctly rounded reciprocal. -/
  | vrcp (i : Issue) (vd va : Reg)
  /-- VRSQ (R89): Lane-wise correctly rounded reciprocal square root. -/
  | vrsq (i : Issue) (vd va : Reg)
  /-- VEXP2 (R89): Lane-wise correctly rounded 2^x. -/
  | vexp2 (i : Issue) (vd va : Reg)
  /-- VLOG2 (R89): Lane-wise correctly rounded log2. -/
  | vlog2 (i : Issue) (vd va : Reg)
  /-- VRSUM (R89): Sums the 64 lanes in a fixed tree into lane 0. -/
  | vrsum (i : Issue) (vd va : Reg)
  /-- VBCAST (R83): Broadcasts g[va][31:0] to every lane. -/
  | vbcast (i : Issue) (vd va : Reg) (rsvd : BitVec 10)
  /-- VMOV (R83): Copies a vector register bit for bit, including its poison bit. -/
  | vmov (i : Issue) (vd va : Reg)
  /-- VCVT (R90): Converts 64 elements between formats under a control word. -/
  | vcvt (i : Issue) (vd va vb vc : Reg)
  /-- VXADD (R91): Forms twelve XF sums of two registers. -/
  | vxadd (i : Issue) (vd va vb : Reg)
  /-- VLD (R81): Loads 256 bytes into a vector register. -/
  | vld (i : Issue) (d a : Reg) (imm : BitVec 16)
  /-- VST (R81): Stores a vector register as 256 bytes. -/
  | vst (i : Issue) (d a : Reg) (imm : BitVec 16)
  /-- QPUSH (R153): Pushes n words to the bound queue once credits allow, or faults on a bad binding. -/
  | qpush (i : Issue) (va : Reg) (q : Fin 8) (n : Fin 4) (fin : Bool) (rsvd : BitVec 15)
  /-- QPOP (R154): Pops n words once present, or faults on a flush marker or bad side. -/
  | qpop (i : Issue) (d : Reg) (q : Fin 8) (n : Fin 4) (rsvd : BitVec 16)
  /-- QCOUNT (R155): Returns the packet counter of a queue. -/
  | qcount (i : Issue) (d : Reg) (q : Fin 8) (rsvd : BitVec 18)
  /-- PUT (R81): Writes up to 2,047 lines from core-local memory to a remote or stacked-memory address. -/
  | put (i : Issue) (a b : Reg) (count : BitVec 11)
  /-- RADD (R81): As PUT, but adds FP32 elements into the destination. -/
  | radd (i : Issue) (a b : Reg) (count : BitVec 11)
  /-- DMAQ (R167): Validates a DMA descriptor and posts it to a channel, waiting if the channel is full. -/
  | dmaq (i : Issue) (ch : Fin 16) (rsvd : Bool) (a : Reg) (imm : BitVec 16)
  /-- FENCE (R81): Waits until local operations and/or remote acknowledgements have completed. -/
  | fence (i : Issue) (rsvd : BitVec 10) (imm : BitVec 16)
  /-- BAR (R95): Waits for local completion and signals arrival at a cluster or partition barrier. -/
  | bar (i : Issue) (rsvd : BitVec 10) (imm : BitVec 16)
  /-- RAMP_WAVE_ENABLE (R97): At its scheduled cycle, a ramp wave's engines are enabled. -/
  | rampWaveEnable (cluster : Fin 32) (wave : Fin 8)
  /-- CLUSTER_QUIET (R96): After 256 cycles without a matrix operation, a cluster becomes quiet. -/
  | clusterQuiet (cluster : Fin 32)
  /-- ISSUE_LEVEL_ARRIVAL (R98): A new issue level reaches a cluster and takes effect. -/
  | issueLevelArrival (cluster : Fin 32)
  /-- WAITT (R223): Waits until a phase token is complete. -/
  | waitt (i : Issue) (rsvd : BitVec 10) (imm : BitVec 16)
  /-- CSRR (R100): Reads a core register into g[d]. -/
  | csrr (i : Issue) (d : Reg) (rsvd : BitVec 5) (imm : BitVec 16)
  /-- CSRW (R100): Writes g[a] to a core register that the sequencer may write. -/
  | csrw (i : Issue) (rsvd : BitVec 5) (a : Reg) (imm : BitVec 16)
  /-- END (R76): Ends the context once its outstanding work has completed, keeping the carry set. -/
  | endContext (i : Issue) (rsvd : BitVec 26)
  /-- TRAP (R81): Raises the software fault with an 8-bit code. -/
  | trap (i : Issue) (rsvd : BitVec 10) (imm : BitVec 16)
  /-- CORE_FAULT_REPORT (R103): A faulted core reports to firmware, which aborts the context. -/
  | coreFaultReport (part : PartNo) (core : Fin 1024)
  /-- CORE_HALT (R101): A write to CORE_CTRL.HALT stops or resumes issue. -/
  | coreHalt (part : PartNo) (core : Fin 1024) (halt : Bool)
  /-- SRAM_SCRUB (R139): A bank yields a cycle to read and correct a line. -/
  | sramScrub (part : PartNo) (cluMem : Bool) (unit : Nat) (line : Nat) (errs : LineErrs)
  /-- GRANULE_READ (R124): A memory controller decodes a granule and delivers data, zeros or poison. -/
  | granuleRead (src : MeshSrc) (part : PartNo) (addr : Addr40) (errs : SymErrs)
  /-- GRANULE_WRITE (R118): A full or partial write to a granule, with metadata and sweep handling. -/
  | granuleWrite (r : MeshReq) (errs : SymErrs)
  /-- STACK_RADD (R120): Performs an atomic FP32 add into stacked memory. -/
  | stackRadd (r : MeshReq) (errs : SymErrs)
  /-- LOCAL_RADD (R120): Performs an atomic FP32 add into scratchpad or cluster memory. -/
  | localRadd (r : MeshReq) (errs : LineErrs)
  /-- PAGE_COPY_COMPLETE (R127): The page copy ends and accesses map to the spare. -/
  | pageCopyComplete (stack : Fin 12)
  /-- HISTORY_EXPIRY (R125): A correction-history entry leaves after 24 hours. -/
  | historyExpiry (stack : Fin 12)
  /-- SWEEP_PAGE (R132): The scrubber zeroes one unswept page; the last page ends the sweep. -/
  | sweepPage (part : PartNo) (stack : Fin 12) (page : Nat)
  /-- GEN_ADVANCE_DEFERRED (R131): A generation advance that waited for a sweep proceeds. -/
  | genAdvanceDeferred (part : PartNo)
  /-- PATROL_READ (R133): The patrol scrubber reads and corrects a granule. -/
  | patrolRead (stack : Fin 12) (granule : Nat) (errs : SymErrs)
  /-- MC_TEMP_READ (R141): A memory controller reads its stack temperature and adjusts refresh. -/
  | mcTempRead (stack : Fin 12) (reading : Reading)
  /-- FULL_FILL_END (R135): A full fill of a stack ends. -/
  | fullFillEnd (stack : Fin 12)
  /-- QUEUE_WORD_ARRIVAL (R151): A queue word reaches its slot or is discarded under the binding check. -/
  | queueWordArrival (p : Pkt) (k : Fin 4)
  /-- QIN_ENABLE (R150): Writing QIN_CFG.ENABLE 1 checks the scree and sends a grant. -/
  | qinEnable (part : PartNo) (core : Fin 1024) (q : Fin 8) (cfg src : Word) (vector : BitVec 8)
  /-- QOUT_BIND (R150): Writing QOUT_DST with VALID 1 clears state and sends a grant request. -/
  | qoutBind (part : PartNo) (core : Fin 1024) (q : Fin 8) (dst : Word)
  /-- QIN_FLUSH (R156): Firmware flushes an inbound side with a reason. -/
  | qinFlush (part : PartNo) (core : Fin 1024) (q : Fin 8) (reason : Code)
  /-- QIN_RESET (R158): Firmware resets an inbound side, discarding its contents and regranting. -/
  | qinReset (part : PartNo) (core : Fin 1024) (q : Fin 8)
  /-- HQ_HEAD_WRITE (R161): The driver writes HQ_HEAD to consume host-queue slots and return credits. -/
  | hqHeadWrite (host : Bool) (part : PartNo) (slot : Fin 16) (value : BitVec 32)
  /-- HQ_TAIL_ADVANCE (R160): A host-queue word's writes are acknowledged and HQ_TAIL advances, perhaps raising the vector. -/
  | hqTailAdvance (part : PartNo) (slot : Fin 16)
  /-- DMA_DESCRIPTOR_COMPLETE (R171): All writes of a descriptor are acknowledged; COUNT, token and interrupt follow. -/
  | dmaDescriptorComplete (cluster : Fin 32) (ch : Fin 16)
  /-- DMA_REQUEST_TIMEOUT (R174): A DMA request has no response after 4 ms, causing a bus error. -/
  | dmaRequestTimeout (cluster : Fin 32) (ch : Fin 16) (piece : Nat)
  /-- DMA_ENGINE_STOPPED (R174): Outstanding responses settle, progress is fixed and the engine interrupts the CP. -/
  | dmaEngineStopped (cluster : Fin 32)
  /-- RESUME (R175): Restarts a stopped or failed channel at DONE_UNITS. -/
  | resume (cluster : Fin 32) (ch : Fin 16)
  /-- CANCEL (R177): Cancels a channel's descriptors from one poster and context. -/
  | cancel (cluster : Fin 32) (ch : Fin 16)
  /-- IRQ_PENDING_CLEAR (R172): Firmware clears a channel's IRQ_PENDING. -/
  | irqPendingClear (cluster : Fin 32) (ch : Fin 16)
  /-- DMA_CANCEL_END (R176): Cancelled writes have settled and the channel leaves cancelling. -/
  | dmaCancelEnd (cluster : Fin 32) (ch : Fin 16)
  /-- PCIE_PORT_RESET (R180): FLR, hot reset, link down or PERST# resets one port's function. -/
  | pciePortReset (host : Bool) (kind : PortResetKind)
  /-- BAR2_READ (R184): A host read through a BAR2 aperture, with split completions and EP for poison. -/
  | bar2Read (host : Bool) (offset len : Nat)
  /-- BAR2_WRITE (R183): A host write through a BAR2 aperture to stacked memory. -/
  | bar2Write (host : Bool) (offset : Nat) (bytes : List Byte) (ep : Bool)
  /-- REGISTER_WRITE (R182): A host write to a register or area without behaviour of its own, or a refused access. -/
  | registerWrite (host : Bool) (a : HostAccess)
  /-- MB_POST (R191): The host writes STATE POSTED to a FREE mailbox. -/
  | mbPost (host : Bool) (mb : MbId)
  /-- MB_FREE (R191): The host writes STATE FREE to a DONE mailbox, completing a CHIP_OWNER_SET move. -/
  | mbFree (host : Bool) (mb : MbId)
  /-- MAILBOX_SCAN (R192): The scanner reads status words and firmware accepts or refuses POSTED commands. -/
  | mailboxScan
  /-- NOP_COMMAND (R195): Mailbox NOP completes at once. -/
  | nopCommand (mb : MbId)
  /-- QUERY (R195): Returns firmware version, cluster count, capacity and licence bits. -/
  | query (mb : MbId)
  /-- STREAM_START (R208): Queues a command stream for the partition. -/
  | streamStart (mb : MbId)
  /-- STREAM_ABORT (R195): Aborts an open stream with 0x0107. -/
  | streamAbort (mb : MbId)
  /-- STRATUM_REGISTER (R228): Checks a stratum record and makes it resident. -/
  | stratumRegister (mb : MbId)
  /-- STRATUM_DROP (R229): Ends a stratum's residence. -/
  | stratumDrop (mb : MbId)
  /-- DMA_RESUME (R176): Driver command for firmware to write RESUME to named channels. -/
  | dmaResume (mb : MbId)
  /-- DMA_IRQ_BIND (R172): Binds a channel's count interrupt to a vector and sets IRQ_AT. -/
  | dmaIrqBind (mb : MbId)
  /-- JOURNAL_READ (R206): Copies journal entries into a buffer. -/
  | journalRead (mb : MbId)
  /-- PART_RESET (R412): Resets the partition. -/
  | partReset (mb : MbId)
  /-- DUMP_RELEASE (R416): Advances DUMP_GEN, emptying every dump slot. -/
  | dumpRelease (mb : MbId)
  /-- ENERGY_READ (R239): Copies a stream's held energy records. -/
  | energyRead (mb : MbId)
  /-- LAYOUT_SET (R396): Applies a new partition layout with a full fill. -/
  | layoutSet (mb : MbId)
  /-- PART_ASSIGN (R188): Resets a partition and gives it a new owner. -/
  | partAssign (mb : MbId)
  /-- CHIP_OWNER_SET (R188): Moves chip ownership, effective when its mailbox is freed. -/
  | chipOwnerSet (mb : MbId)
  /-- CHIP_RESET (R397): Performs a compute-only or whole-package chip reset. -/
  | chipReset (mb : MbId)
  /-- POWER_CYCLE (R407): Requests a power cycle from tray firmware. -/
  | powerCycle (mb : MbId)
  /-- FW_ACTIVATE (R459): Activates the image in the named slot. -/
  | fwActivate (mb : MbId)
  /-- LICENCE_INSTALL (R452): Verifies and stores a licence. -/
  | licenceInstall (mb : MbId) (sigOk : Bool)
  /-- EVT_HEAD_WRITE (R199): The host writes an event log's HEAD, possibly raising its vector. -/
  | evtHeadWrite (host : Bool) (log : Option PartNo) (value : Word)
  /-- STREAM_BEGIN (R224): The next waiting stream starts and is validated. -/
  | streamBegin (part : PartNo)
  /-- OPERATION_COMPLETE (R221): A stream operation completes, signalling tokens and opening phases or ending the stream. -/
  | operationComplete (part : PartNo) (op : Nat)
  /-- LAUNCH (R217): Starts a context of a segment on each selected core. -/
  | launch (part : PartNo) (op : Nat)
  /-- DMA_OPERATION (R218): Firmware posts a list of DMA descriptors for the stream. -/
  | dmaOperation (part : PartNo) (op : Nat)
  /-- QUEUE_SETUP (R230): Binds a queue set. -/
  | queueSetup (part : PartNo) (op : Nat)
  /-- STREAM_FENCE (R216): Completes once every earlier operation has completed. -/
  | streamFence (part : PartNo) (op : Nat)
  /-- BARRIER (R308): Runs a cross-rank barrier over BARRIER packets. -/
  | barrier (part : PartNo) (op : Nat)
  /-- BARRIER_TIMEOUT (R219): A BARRIER fails with 0x0306 after TIMEOUT. -/
  | barrierTimeout (part : PartNo) (op : Nat)
  /-- COLLECTIVE_START (R316): Resolves the group and launches lane contexts of a collective. -/
  | collectiveStart (part : PartNo) (op : Nat)
  /-- HINT_HEAVY (R350): The power controller prepares voltage or arms clusters for heavy work. -/
  | hintHeavy (part : PartNo) (op : Nat)
  /-- HINT_EXPIRY (R350): A held hint preparation ends at t + 1 ms. -/
  | hintExpiry (part : PartNo)
  /-- STRATUM_LOAD (R234): Prepares a resident stratum for a switch. -/
  | stratumLoad (part : PartNo) (op : Nat)
  /-- STRATUM_SWITCH (R235): Ends the current job and starts saving persistent state. -/
  | stratumSwitch (part : PartNo) (op : Nat)
  /-- SWITCH_RESTORE_DONE (R235): Save and restore finish; set 0 is bound and the incoming job begins. -/
  | switchRestoreDone (part : PartNo)
  /-- ENERGY_CHECKPOINT (R240): Writes the running job's energy record. -/
  | energyCheckpoint (part : PartNo) (op : Nat)
  /-- PACKET_FORWARD (R288): The switch looks up a packet and moves it to a port and pool under the bubble rule. -/
  | packetForward (place : PktPlace) (idx : Nat)
  /-- WRITE (R291): A WRITE packet is delivered or refused at its destination. -/
  | write (p : Pkt)
  /-- RADD_REQUEST (R291): A RADD packet is delivered or refused at its destination. -/
  | raddRequest (p : Pkt)
  /-- READ (R291): A READ packet is served or refused at its destination. -/
  | read (p : Pkt)
  /-- MWRITE (R304): A member delivers its copy of a multicast write and forwards the rest. -/
  | mwrite (port : Fin 20) (p : Pkt)
  /-- WACK (R294): A write acknowledgement frees its reply slot. -/
  | wack (p : Pkt)
  /-- RDATA (R294): Read data lands in its reply slot. -/
  | rdata (p : Pkt)
  /-- REFUSE (R294): A refusal frees its reply slot and fails the requester. -/
  | refuse (p : Pkt)
  /-- GRANT (R150): A producer accepts its first grant, setting credits and next slot. -/
  | grant (p : Pkt)
  /-- CREDIT (R150): Returned credits, with any echo, reach the producer. -/
  | credit (p : Pkt)
  /-- QACK (R151): Queue words are acknowledged to the producer. -/
  | qack (p : Pkt)
  /-- QWORD (R277): A COL packet carrying queue words is delivered to its inbound side. -/
  | qword (p : Pkt)
  /-- HOP_CREDIT (R280): A port updates its free-slot counts for the peer's pools. -/
  | hopCredit (port : Fin 20) (p : Pkt)
  /-- HOP_CREDIT_TIMER (R280): A port sends a HOP_CREDIT at its periodic deadline. -/
  | hopCreditTimer (port : Fin 20)
  /-- HANDOVER (R267): A handover report makes the failed port hand undelivered cells to its twin. -/
  | handover (port : Fin 20) (p : Pkt)
  /-- GRANT_REQ (R150): An inbound side answers a matching grant request. -/
  | grantReq (p : Pkt)
  /-- NOTICE (R277): Breaks an outbound binding or flushes an inbound side. -/
  | notice (p : Pkt)
  /-- BARRIER_ARRIVAL (R308): A BARRIER packet is kept or used by the CP. -/
  | barrierArrival (p : Pkt)
  /-- PROBE (R307): A PROBE is echoed by its target or its echo is recorded. -/
  | probe (p : Pkt)
  /-- PROBE_START (R307): FAB_PROBE_CTRL.START sends a probe. -/
  | probeStart (device : DeviceNo)
  /-- PROBE_TIMEOUT (R307): No echo within 1 ms sets FAILED. -/
  | probeTimeout
  /-- REPLY_SLOT_EXPIRY (R294): A reply slot expires 4 ms after its request. -/
  | replySlotExpiry (part : PartNo) (unit : BitVec 16) (slot : BitVec 12)
  /-- RATE_LIMIT_INCREASE (R302): A limiter raises its rate after INC_PERIOD without echo. -/
  | rateLimitIncrease (dest : DeviceNo)
  /-- RATE_LIMITER_FREE (R302): A limiter at full rate for 64 µs is freed. -/
  | rateLimiterFree (dest : DeviceNo)
  /-- HIST_SAMPLE (R306): Every 64 NCLK cycles, pool occupancy is binned. -/
  | histSample
  /-- FLIP (R285): Inverts CURRENT and sets SETTLING. -/
  | flip (h : MgmtHdr)
  /-- SETTLE (R285): Clears SETTLING and frees the old bank for writing. -/
  | settle (h : MgmtHdr)
  /-- IDLE (R261): An idle link cell is received. -/
  | idle (port : Fin 20) (rx : LinkRx)
  /-- NAK (R262): A NAK makes the sender replay unacknowledged cells. -/
  | nak (port : Fin 20) (rx : LinkRx)
  /-- REPLAY_TIMEOUT (R262): 2 µs without ACK advance starts a replay. -/
  | replayTimeout (port : Fin 20)
  /-- ACK_TIMER (R262): The receiver sends a cumulative ACK at its 100 ns deadline. -/
  | ackTimer (port : Fin 20)
  /-- CELL_RECEIVE (R262): A non-link cell is accepted in order or discarded. -/
  | cellReceive (port : Fin 20) (rx : LinkRx)
  /-- IDENT (R258): A received IDENT is checked and sets the port UP, IDENT_WAIT or HELD. -/
  | ident (port : Fin 20) (rx : LinkRx)
  /-- IDENT_SEND (R256): A port sends an IDENT at its periodic deadline. -/
  | identSend (port : Fin 20)
  /-- PORT_TRAIN (R253): Firmware starts training a port. -/
  | portTrain (port : Fin 20)
  /-- ACCEPTANCE_TEST (R254): The lane error measurement ends, accepting the port or failing training. -/
  | acceptanceTest (port : Fin 20) (measured : Nat) (errs : List Nat) (settings : BitVec 640)
  /-- TRAINING_FALLBACK (R253): A saved-record start not accepted after 25 ms falls back to full training. -/
  | trainingFallback (port : Fin 20)
  /-- PORT_RETRAIN_TIMER (R253): A DOWN enabled port is trained again at least once per second. -/
  | portRetrainTimer (port : Fin 20)
  /-- LANE_FAILING (R263): A receive lane is declared failing and a LANE_SWAP is sent. -/
  | laneFailing (port : Fin 20) (lane : Fin 5) (lockLost : Bool)
  /-- LANE_SWAP (R263): The peer answers a lane-swap request with SWAP_ACK. -/
  | laneSwap (port : Fin 20) (rx : LinkRx) (count : BitVec 32)
  /-- SWAP_ACK (R263): The requester records the codeword count for the swap. -/
  | swapAck (port : Fin 20) (rx : LinkRx)
  /-- LANE_SWAP_SWITCH (R263): At the named codeword count, the spare takes the failing lane's place. -/
  | laneSwapSwitch (port : Fin 20) (tx : Bool)
  /-- SWAP_TIMEOUT (R263): No SWAP_ACK within 10 µs fails the port. -/
  | swapTimeout (port : Fin 20)
  /-- DOWN (R265): A DOWN link cell fails the port. -/
  | down (port : Fin 20) (rx : LinkRx)
  /-- PORT_FAIL (R265): A port fails on lost alignment, replay limit or silence, sends DOWN and freezes its buffer. -/
  | portFail (port : Fin 20) (cause : PortFailCause)
  /-- REPORT_WAIT_EXPIRY (R268): No handover report within REPORT_WAIT discards the retry buffer. -/
  | reportWaitExpiry (port : Fin 20)
  /-- HANDOVER_END (R267): The last handed cell enters the twin's buffer and held cells are released. -/
  | handoverEnd (port : Fin 20)
  /-- RACK_REF_LOSS (R370): No rack reference edge for 1 µs fails the ports and holds the PLLs. -/
  | rackRefLoss
  /-- RACK_REF_RETURN (R370): The rack reference returns and ports train again. -/
  | rackRefReturn
  /-- PLL_REF_SWITCH (R370): Firmware moves a PLL to the next available reference. -/
  | pllRefSwitch
  /-- BEDROCK_TRIM (R371): Each second the bedrock clock is trimmed against the rack reference. -/
  | bedrockTrim
  /-- RACK_SYNC (R373): A RACK_SYNC edge loads or corrects rack time. -/
  | rackSync
  /-- PS1_ENTRY (R375): A partition idle for PS1_IDLE_US gates its ACLK. -/
  | ps1Entry (part : PartNo)
  /-- PS2_ENTRY (R378): A partition idle for PS2_IDLE_MS breaks queues, saves retention state and gates rails. -/
  | ps2Entry (part : PartNo)
  /-- PS3_ENTRY (R379): The package enters PS3 when R377 holds. -/
  | ps3Entry
  /-- PS4_ENTRY (R375): The package enters PS4 by message or timer. -/
  | ps4Entry
  /-- WAKE (R381): A wake source brings a partition or the package out of a low-power state. -/
  | wake (src : WakeSrc)
  /-- STAGE_END (R385): A bring-up stage ends, writes its cairn record and the next stage begins. -/
  | stageEnd (r : StageResult)
  /-- S3_RETRY (R386): S3 is retried every 100 ms, halting after 10 s. -/
  | s3Retry (pllOk hot : Bool)
  /-- COLD_START (R472): BEDROCK_PG rises and S0 begins. -/
  | coldStart (wholeOnly : Bool) (addr : BitVec 3)
  /-- PWR_GOOD (R472): PWR_GOOD rises and the power-up or wake continues. -/
  | pwrGood
  /-- RAIL_LOSS (R473): An unexpected fall of PWR_GOOD gates the package and lowers the enables. -/
  | railLoss (hbm : BitVec 12)
  /-- RAIL_LOSS_RESTART (R473): 100 ms after a rail loss, the enables rise and a whole-package reset starts. -/
  | railLossRestart
  /-- BEDROCK_LOSS (R473): BEDROCK_PG falls and the bedrock domain is lost. -/
  | bedrockLoss
  /-- PKG_RESET_N (R476): Assertion of PKG_RESET_N starts a whole-package reset; release lets S1 begin. -/
  | pkgResetN (asserted : Bool)
  /-- FLASH_GNT (R477): The tray grants the flash and the boot ROM reads the image. -/
  | flashGnt (slotsOk : BitVec 2)
  /-- FLASH_GRANT_TIMEOUT (R481): No grant within 5 ms fails both slots. -/
  | flashGrantTimeout
  /-- POWER_ESTIMATE_PASS (R340): Every 4 µs the estimate is formed and L_POWER computed. -/
  | powerEstimatePass (counts : Counts)
  /-- CALIBRATION_PASS (R337): Every 1 ms K is updated against measured power. -/
  | calibrationPass (measured : Option Nat)
  /-- CAP_UNREACHABLE (R335): The estimate has exceeded P_eff for 1 ms at the lowest settings. -/
  | capUnreachable
  /-- SLOW_LOOP (R345): The slow loop sets TARGET. -/
  | slowLoop
  /-- VF_STEP (R346): A one-step voltage and frequency move begins. -/
  | vfStep
  /-- VR_COMPLETE (R346): The VR reports completion and the step finishes. -/
  | vrComplete
  /-- VR_TIMEOUT (R347): A VR request not completed in 40 µs is repeated or sets VR_FAULT. -/
  | vrTimeout
  /-- DROOP_DETECT (R351): A supply droop below threshold starts clock stretching. -/
  | droopDetect (cluster : Fin 32)
  /-- DROOP_STRETCH_END (R351): Stretching ends after 64 stretched cycles above the threshold. -/
  | droopStretchEnd (cluster : Fin 32)
  /-- TRIM_START (R353): A due trim begins in an idle window. -/
  | trimStart
  /-- TRIM_END (R354): A trim completes and updates VMIN and G. -/
  | trimEnd (measured : Option (List (List Nat)))
  /-- JUNCTION_SENSOR_READ (R356): A junction sensor is read and judged credible. -/
  | junctionSensorRead (cluster : Fin 32) (sensor : Fin 8) (reading : Temp)
  /-- SENSOR_FAULTY (R356): A sensor pair disagreeing for 100 ms declares one faulty. -/
  | sensorFaulty (cluster : Fin 32) (pair : Fin 4)
  /-- THERMAL_PASS (R358): Every 100 µs thermal levels are updated. -/
  | thermalPass
  /-- STACK_BW_PASS (R359): Stack bandwidth fraction is updated from temperature. -/
  | stackBwPass (stack : Fin 12)
  /-- COOLANT_EMERGENCY (R359): A stack at 105 °C for 1 ms brings the emergency floor. -/
  | coolantEmergency (stack : Fin 12)
  /-- HEADROOM_PASS (R361): Every second SUSTAIN_W and LOSS_RATE are computed. -/
  | headroomPass
  /-- PWR_BRAKE (R362): Recognised assertion or release of PWR_BRAKE applies or removes the brake. -/
  | pwrBrake (asserted : Bool)
  /-- COOL_ALERT (R362): Recognised assertion of COOL_ALERT imposes the emergency floor. -/
  | coolAlert (asserted : Bool)
  /-- COOL_ALERT_RELEASE (R362): 1 s after COOL_ALERT release, normal control resumes. -/
  | coolAlertRelease
  /-- THERMAL_TRIP (R363): Two safety chains of a field vote and the package trips. -/
  | thermalTrip (field : Fin 4) (a b c : Reading)
  /-- ELECTRICAL_TRIP (R429): Two overcurrent or overvoltage chains vote and the package trips. -/
  | electricalTrip (monitor : ElecMonitor) (votes faults : BitVec 3)
  /-- THERMAL_CYCLE_SAMPLE (R364): Every 100 ms field temperatures are sampled for cycle counting. -/
  | thermalCycleSample
  /-- CYCLE_COUNT_SAVE (R364): Cycle counts are written to tray flash hourly. -/
  | cycleCountSave
  /-- POWER_STALL (R365): No fast-loop pass for 20 µs imposes stall limits. -/
  | powerStall
  /-- CONTEXT_WATCHDOG (R405): No stream advance for CTX_WD_MS aborts the stream's contexts. -/
  | contextWatchdog (part : PartNo)
  /-- ENGINE_WATCHDOG (R411): No product issued for ENG_WD_MS triggers an engine reset. -/
  | engineWatchdog (part : PartNo) (core : Fin 1024)
  /-- PARTITION_POLL (R405): Firmware polls clusters over CTL every 10 ms. -/
  | partitionPoll (part : PartNo) (answers : BitVec 32)
  /-- PARTITION_WATCHDOG (R405): A cluster silent for PART_WD_MS triggers a partition reset. -/
  | partitionWatchdog (part : PartNo) (cluster : Fin 32)
  /-- ESCALATION_OVERRUN (R408): A recovery level that overruns its bound escalates. -/
  | escalationOverrun (part : PartNo) (core : Option (Fin 1024))
  /-- CONTEXT_ABORT_END (R410): The aborted core reads idle. -/
  | contextAbortEnd (part : PartNo) (core : Fin 1024) (tiles : List Nat)
  /-- DUMP (R417): A dump starts reading records into a slot before a reset. -/
  | dump (part : PartNo)
  /-- DEBUG_READ_TIMEOUT (R419): A debug-ring read unanswered for 1 ms marks records unreadable. -/
  | debugReadTimeout (part : PartNo) (record : Nat)
  /-- DUMP_BUDGET_EXPIRY (R419): DUMP_BUDGET_MS elapses and remaining records are marked. -/
  | dumpBudgetExpiry (part : PartNo) (record : Nat)
  /-- DUMP_END (R421): A dump ends, logs DUMP_TAKEN and the reset proceeds. -/
  | dumpEnd (part : PartNo)
  /-- MESH_DRAIN_DONE (R412): A resetting partition's mesh traffic has drained; GEN advances and the reset completes. -/
  | meshDrainDone (part : PartNo)
  /-- CP_WD_PET (R405): The active CP restarts the CP watchdog. -/
  | cpWdPet
  /-- CP_WATCHDOG (R423): The CP watchdog fires and switch-over begins. -/
  | cpWatchdog
  /-- CP_UNCORRECTED (R423): CP-A reports an uncorrectable error in its memory and switch-over begins. -/
  | cpUncorrected
  /-- CPB_SELF_TEST (R422): Every 10 minutes CP-B is powered for a self-test. -/
  | cpbSelfTest (passed imageOk : Bool)
  /-- CPA_SELF_TEST (R428): CP-B resets and tests CP-A after a switch-over. -/
  | cpaSelfTest (passed : Bool)
  /-- HANDBACK (R428): A healthy CP-A takes back the token and control. -/
  | handback
  /-- BEDROCK_SRAM_ERROR (R404): An uncorrectable bedrock SRAM error rewrites or restores the entry. -/
  | bedrockSramError (line : BedrockLine)
  /-- HEARTBEAT (R444): Resets HB_MISSED and ends orphan mode. -/
  | heartbeat (h : MgmtHdr)
  /-- HEARTBEAT_MISS (R442): A whole second without heartbeat increments HB_MISSED. -/
  | heartbeatMiss
  /-- COUNTER_SAVE (R439): Accepted counters are copied to tray flash each second. -/
  | counterSave
  /-- TELEMETRY_FETCH (R440): Returns selected telemetry or a congestion snapshot. -/
  | telemetryFetch (h : MgmtHdr) (select : BitVec 3) (part : PartNo) (seq : BitVec 48)
  /-- COORD_SET (R441): Sets the device number. -/
  | coordSet (h : MgmtHdr) (device : DeviceNo)
  /-- CAP_SET (R342): Sets rack cap, brake settings and orphan percentage. -/
  | capSet (h : MgmtHdr) (mask : BitVec 4) (rackCap brakeW : BitVec 16) (brakeLevel orphanPct : BitVec 7)
  /-- TRAY_CAP (R342): Sets the tray cap. -/
  | trayCap (h : MgmtHdr) (cap : BitVec 12)
  /-- COOLANT (R360): Reports the coolant inlet temperature. -/
  | coolant (h : MgmtHdr) (temp : BitVec 10)
  /-- RAILS (R337): Reports rail powers for calibration. -/
  | rails (h : MgmtHdr) (powers : List (BitVec 16))
  /-- POWER_CONFIG (R440): Sets fixed mode, boost and power margins. -/
  | powerConfig (h : MgmtHdr) (fixedEn : Option Bool) (fixedStep : Option (BitVec 4)) (boostEn : Option Bool) (hintMargin : Option (BitVec 5)) (droopMv : Option (BitVec 6)) (stallLevel : Option (BitVec 7))
  /-- TIME_SET (R373): Sets RT_LOAD, PERIOD_MS and ARM_LOAD. -/
  | timeSet (h : MgmtHdr) (load : Word) (period : BitVec 16) (arm : Bool)
  /-- OWNER_SET (R187): Sets partition or chip ownership from the rack manager. -/
  | ownerSet (h : MgmtHdr) (part : PartNo) (owner chip : Bool)
  /-- STATE_SET (R440): Sets PS3_EN or enters PS4. -/
  | stateSet (h : MgmtHdr) (ps3En ps4 : Bool)
  /-- RESET (R440): Management reset message: compute-only, whole-package or power cycle. -/
  | reset (h : MgmtHdr) (kind : BitVec 2)
  /-- ROUTE_WRITE (R285): Writes route entries of a non-current bank. -/
  | routeWrite (h : MgmtHdr) (bank : Bool) (first : BitVec 16) (count : BitVec 16) (entries : List Byte)
  /-- FABRIC_CONFIG (R440): Writes ring, arbitration, congestion and link settings. -/
  | fabricConfig (h : MgmtHdr) (ring : Option (BitVec 32)) (arb : Option (BitVec 32)) (cong : Option (BitVec 32)) (link : Option (BitVec 32))
  /-- PORT_SET (R247): Sets a port's FP_EXPECT and FULL_TRAIN. -/
  | portSet (h : MgmtHdr) (port : BitVec 5) (expect : Word) (fullTrain : Bool)
  /-- STAND_IN (R271): Sets or ends a spare port's stand-in role. -/
  | standIn (h : MgmtHdr) (port : BitVec 5) (role : BitVec 5)
  /-- RETRAIN (R253): Retrains a port now. -/
  | retrain (h : MgmtHdr) (port : BitVec 5) (fullTrain : Bool)
  /-- PROBE_MESSAGE (R440): Runs a probe and returns its result. -/
  | probeMessage (h : MgmtHdr) (target : DeviceNo)
  /-- IMAGE_BEGIN (R457): Erases the inactive slot and writes an image header. -/
  | imageBegin (h : MgmtHdr) (header : BitVec 2048)
  /-- IMAGE_DATA (R457): Writes image body data. -/
  | imageData (h : MgmtHdr) (offset : BitVec 32) (bytes : List Byte)
  /-- IMAGE_END (R457): Verifies the received image and stages it. -/
  | imageEnd (h : MgmtHdr) (sigOk hashOk : Bool)
  /-- ACTIVATE (R459): Management activation of an image slot. -/
  | activate (h : MgmtHdr) (slot : Bool)
  /-- LICENCE (R452): Management installation of a licence. -/
  | licence (h : MgmtHdr) (bytes : List Byte) (sigOk : Bool)
  /-- LIFECYCLE (R450): Performs a life-cycle transition. -/
  | lifecycle (h : MgmtHdr) (target : BitVec 3) (ownerKey : BitVec 256) (ownerSig : Bool)
  /-- KEY_SET (R439): Installs or removes a controller key. -/
  | keySet (h : MgmtHdr) (slot : BitVec 2) (roles : BitVec 3) (key : BitVec 256)
  /-- DEFECT_EDIT (R390): Removes a field defect log entry from the next start. -/
  | defectEdit (h : MgmtHdr) (entry : BitVec 96)
  /-- DEBUG_UNLOCK (R448): Opens debug until the next chip reset. -/
  | debugUnlock (h : MgmtHdr)
  /-- SPDM_REQUEST (R447): Answers an SPDM attestation request. -/
  | spdmRequest (path : SpdmPath) (req : SpdmReq)
  /-- JTAG_INSTRUCTION (R435): Executes a JTAG instruction permitted in the current state. -/
  | jtagInstruction (op : JtagOp)
  /-- TRIAL_TICK (R462): Each trial second increments TRIAL_SECONDS, reverting at 600. -/
  | trialTick
  /-- IMAGE_CONFIRM (R460): The trial image confirms and the security counter advances. -/
  | imageConfirm
  /-- DMA_REQUEST_ISSUE (R169): A DMA engine issues the next request of a channel, which is refused at issue when its offset sum leaves 40 bits, reaches C_p or the dump area. -/
  | dmaRequestIssue (cluster : Fin 32) (ch : Fin 16)
  /-- INBOUND_MESH_ACCESS (R93): A PUT, DMA or debug-ring write or read arrives over the mesh at a core's scratchpad or cluster memory and is performed at top priority. -/
  | inboundMeshAccess (r : MeshReq)
  /-- PCIE_LINK_UP (R386): A PCIe link that was down trains and comes up, setting PORT_A_UP or PORT_B_UP. -/
  | pcieLinkUp (host : Bool)
  /-- COOLANT_TIMEOUT (R360): With no coolant message for 5 s, the thermal model assumes 45.0 °C and clears COOLANT_VALID. -/
  | coolantTimeout
  /-- GUARD_BAND_RISE (R354): After 72 hours of operation without a successful trim, G rises by 5 mV for each further 24 hours, up to 45 mV. -/
  | guardBandRise
  /-- TRIP_CORE_EN_RELEASE (R472): 5 ms after a trip, the device lowers CORE_EN. -/
  | tripCoreEnRelease
  /-- MGMT_ETHERNET_LINK (R434): The management Ethernet link comes up or goes down, changing MGMT_STATUS.ETH_UP. -/
  | mgmtEthernetLink (up : Bool)
  /-- I3C_DYNAMIC_ADDRESS (R434): The tray controller assigns the package its dynamic I3C address, setting MGMT_STATUS.I3C_DYN. -/
  | i3cDynamicAddress (addr : BitVec 7)
  deriving DecidableEq, Repr

end Sys2Proof
end

