-- ==== Sys2Proof/Decode.lean ====
section
/-! DEFINITION. The table's words, of which no row has bits; and the words of a core's instructions with their formats (R80 to
R83), read and written. -/

namespace Sys2Proof

/-- The command that a word of the table spells: no row of the table gives bits. -/
def decodeTableWord (_nbits _w : Nat) : Option Instr := none

/-! ## Fields of a core's instruction word (R80) -/

/-- The opcode, bits [31:26]. -/
def opcodeField (w : BitVec 32) : BitVec 6 := w.extractLsb' 26 6

/-- Bits [25:21]: d, vd, or the first operand of a branch. -/
def dField (w : BitVec 32) : BitVec 5 := w.extractLsb' 21 5

/-- Bits [20:16]: a, va, or the second operand of a branch. -/
def aField (w : BitVec 32) : BitVec 5 := w.extractLsb' 16 5

/-- Bits [15:11]: b, vb. -/
def bField (w : BitVec 32) : BitVec 5 := w.extractLsb' 11 5

/-- Bits [10:6]: vc. -/
def cField (w : BitVec 32) : BitVec 5 := w.extractLsb' 6 5

/-- Bits [15:0]: imm16. -/
def immField (w : BitVec 32) : BitVec 16 := w.extractLsb' 0 16

/-- Bits [10:0]: function. -/
def funField (w : BitVec 32) : BitVec 11 := w.extractLsb' 0 11

/-- Bits [5:0]: sub-operation. -/
def subField (w : BitVec 32) : BitVec 6 := w.extractLsb' 0 6

/-- A register's number. -/
def regOf (x : BitVec 5) : Reg := x.toFin

/-- A register's field. -/
def regBits (r : Reg) : BitVec 5 := BitVec.ofFin r

/-- The ALU functions; every other value is reserved (R82). -/
def decodeAlu (i : Issue) (w : BitVec 32) : Option Instr :=
  let d := regOf (dField w)
  let a := regOf (aField w)
  let b := regOf (bField w)
  match (funField w).toNat with
  | 0x000 => some (.add i d a b)
  | 0x001 => some (.sub i d a b)
  | 0x002 => some (.and i d a b)
  | 0x003 => some (.or i d a b)
  | 0x004 => some (.xor i d a b)
  | 0x005 => some (.shl i d a b)
  | 0x006 => some (.shr i d a b)
  | 0x007 => some (.sar i d a b)
  | 0x008 => some (.mul i d a b)
  | 0x009 => some (.mulhu i d a b)
  | 0x00A => some (.slt i d a b)
  | 0x00B => some (.sltu i d a b)
  | _ => none

/-- The vector sub-operations; every other value is reserved (R83). -/
def decodeVop (i : Issue) (w : BitVec 32) : Option Instr :=
  let d := regOf (dField w)
  let a := regOf (aField w)
  let b := regOf (bField w)
  let c := regOf (cField w)
  match (subField w).toNat with
  | 0x00 => some (.vadd i d a b)
  | 0x01 => some (.vsub i d a b)
  | 0x02 => some (.vmul i d a b)
  | 0x03 => some (.vfma i d a b c)
  | 0x04 => some (.vmin i d a b)
  | 0x05 => some (.vmax i d a b)
  | 0x06 => some (.vabs i d a)
  | 0x07 => some (.vneg i d a)
  | 0x08 => some (.vrcp i d a)
  | 0x09 => some (.vrsq i d a)
  | 0x0A => some (.vexp2 i d a)
  | 0x0B => some (.vlog2 i d a)
  | 0x0C => some (.vrsum i d a)
  | 0x0D => some (.vbcast i d a (w.extractLsb' 6 10))
  | 0x0E => some (.vmov i d a)
  | 0x10 => some (.vcvt i d a b c)
  | 0x11 => some (.vxadd i d a b)
  | _ => none

/-- The instruction that a core's word spells; none for a reserved opcode, function or sub-operation, which raise the encoding
fault (R80, R81). RSVD fields are the instruction's own operands, for its checks. -/
def decodeCoreWord (i : Issue) (w : BitVec 32) : Option Instr :=
  let d := regOf (dField w)
  let a := regOf (aField w)
  let b := regOf (bField w)
  let imm := immField w
  let slot : Fin 8 := (w.extractLsb' 23 3).toFin
  let q : Fin 8 := (w.extractLsb' 13 3).toFin
  let n : Fin 4 := (w.extractLsb' 11 2).toFin
  match (opcodeField w).toNat with
  | 0x00 => some (.nop i (w.extractLsb' 0 26))
  | 0x01 => decodeAlu i w
  | 0x02 => some (.addi i d a imm)
  | 0x03 => some (.andi i d a imm)
  | 0x04 => some (.ori i d a imm)
  | 0x05 => some (.shli i d a imm)
  | 0x06 => some (.lui i d imm)
  | 0x08 => some (.ld i d a imm)
  | 0x09 => some (.st i d a imm)
  | 0x0C => some (.beq i d a imm)
  | 0x0D => some (.bne i d a imm)
  | 0x0E => some (.blt i d a imm)
  | 0x0F => some (.bltu i d a imm)
  | 0x10 => some (.jal i d (w.extractLsb' 0 21))
  | 0x11 => some (.jr i d a imm)
  | 0x14 => some (.mdload i slot (w.extractLsb' 21 2) a imm)
  | 0x15 => some (.mma i slot (w.extractLsb' 0 23))
  | 0x16 => some (.waitm i (w.extractLsb' 16 10) imm)
  | 0x18 => decodeVop i w
  | 0x19 => some (.vld i d a imm)
  | 0x1A => some (.vst i d a imm)
  | 0x1C => some (.qpush i d q n (w.getLsbD 10) (w.extractLsb' 16 5 ++ w.extractLsb' 0 10))
  | 0x1D => some (.qpop i d q n (w.extractLsb' 16 5 ++ w.extractLsb' 0 11))
  | 0x1E => some (.qcount i d q (w.extractLsb' 16 5 ++ w.extractLsb' 0 13))
  | 0x20 => some (.put i a b (funField w))
  | 0x21 => some (.radd i a b (funField w))
  | 0x24 => some (.dmaq i (w.extractLsb' 21 4).toFin (w.getLsbD 25) a imm)
  | 0x28 => some (.fence i (w.extractLsb' 16 10) imm)
  | 0x29 => some (.bar i (w.extractLsb' 16 10) imm)
  | 0x2A => some (.waitt i (w.extractLsb' 16 10) imm)
  | 0x2C => some (.csrr i d (aField w) imm)
  | 0x2D => some (.csrw i (dField w) a imm)
  | 0x30 => some (.endContext i (w.extractLsb' 0 26))
  | 0x31 => some (.trap i (w.extractLsb' 16 10) imm)
  | _ => none

/-! ## Writing the words -/

/-- Formats A and V: three registers and eleven low bits (R80). -/
def word3 (op : BitVec 6) (d a b : BitVec 5) (low : BitVec 11) : BitVec 32 := op ++ d ++ a ++ b ++ low

/-- Formats I, B and M: two registers and imm16 (R80). -/
def word2 (op : BitVec 6) (d a : BitVec 5) (imm : BitVec 16) : BitVec 32 := op ++ d ++ a ++ imm

/-- An ALU word (R82). -/
def aluWord (f : BitVec 11) (d a b : Reg) : BitVec 32 := word3 0x01 (regBits d) (regBits a) (regBits b) f

/-- A vector word with its unused fields zero (R83). -/
def vopWord (sub : BitVec 6) (d a b c : Reg) : BitVec 32 := word3 0x18 (regBits d) (regBits a) (regBits b) (regBits c ++ sub)

/-- An opcode with a RSVD field [25:16] and imm16. -/
def waitWord (op : BitVec 6) (rsvd : BitVec 10) (imm : BitVec 16) : BitVec 32 := op ++ rsvd ++ imm

/-- The word of a core's instruction; none for the other commands (R80 to R83). Fields that a form leaves unnamed are zero. -/
def encodeCoreWord : Instr → Option (BitVec 32)
  | .nop _ rsvd => some ((0x00 : BitVec 6) ++ rsvd)
  | .add _ d a b => some (aluWord 0x000 d a b)
  | .sub _ d a b => some (aluWord 0x001 d a b)
  | .and _ d a b => some (aluWord 0x002 d a b)
  | .or _ d a b => some (aluWord 0x003 d a b)
  | .xor _ d a b => some (aluWord 0x004 d a b)
  | .shl _ d a b => some (aluWord 0x005 d a b)
  | .shr _ d a b => some (aluWord 0x006 d a b)
  | .sar _ d a b => some (aluWord 0x007 d a b)
  | .mul _ d a b => some (aluWord 0x008 d a b)
  | .mulhu _ d a b => some (aluWord 0x009 d a b)
  | .slt _ d a b => some (aluWord 0x00A d a b)
  | .sltu _ d a b => some (aluWord 0x00B d a b)
  | .addi _ d a imm => some (word2 0x02 (regBits d) (regBits a) imm)
  | .andi _ d a imm => some (word2 0x03 (regBits d) (regBits a) imm)
  | .ori _ d a imm => some (word2 0x04 (regBits d) (regBits a) imm)
  | .shli _ d a imm => some (word2 0x05 (regBits d) (regBits a) imm)
  | .lui _ d imm => some (word2 0x06 (regBits d) 0 imm)
  | .ld _ d a imm => some (word2 0x08 (regBits d) (regBits a) imm)
  | .st _ d a imm => some (word2 0x09 (regBits d) (regBits a) imm)
  | .beq _ a b imm => some (word2 0x0C (regBits a) (regBits b) imm)
  | .bne _ a b imm => some (word2 0x0D (regBits a) (regBits b) imm)
  | .blt _ a b imm => some (word2 0x0E (regBits a) (regBits b) imm)
  | .bltu _ a b imm => some (word2 0x0F (regBits a) (regBits b) imm)
  | .jal _ d offset => some ((0x10 : BitVec 6) ++ regBits d ++ offset)
  | .jr _ d a rsvd => some (word2 0x11 (regBits d) (regBits a) rsvd)
  | .mdload _ slot rsvd a imm => some ((0x14 : BitVec 6) ++ (BitVec.ofFin slot : BitVec 3) ++ rsvd ++ regBits a ++ imm)
  | .mma _ slot rsvd => some ((0x15 : BitVec 6) ++ (BitVec.ofFin slot : BitVec 3) ++ rsvd)
  | .waitm _ rsvd imm => some (waitWord 0x16 rsvd imm)
  | .vadd _ d a b => some (vopWord 0x00 d a b 0)
  | .vsub _ d a b => some (vopWord 0x01 d a b 0)
  | .vmul _ d a b => some (vopWord 0x02 d a b 0)
  | .vfma _ d a b c => some (vopWord 0x03 d a b c)
  | .vmin _ d a b => some (vopWord 0x04 d a b 0)
  | .vmax _ d a b => some (vopWord 0x05 d a b 0)
  | .vabs _ d a => some (vopWord 0x06 d a 0 0)
  | .vneg _ d a => some (vopWord 0x07 d a 0 0)
  | .vrcp _ d a => some (vopWord 0x08 d a 0 0)
  | .vrsq _ d a => some (vopWord 0x09 d a 0 0)
  | .vexp2 _ d a => some (vopWord 0x0A d a 0 0)
  | .vlog2 _ d a => some (vopWord 0x0B d a 0 0)
  | .vrsum _ d a => some (vopWord 0x0C d a 0 0)
  | .vbcast _ d a rsvd => some ((0x18 : BitVec 6) ++ regBits d ++ regBits a ++ rsvd ++ (0x0D : BitVec 6))
  | .vmov _ d a => some (vopWord 0x0E d a 0 0)
  | .vcvt _ d a b c => some (vopWord 0x10 d a b c)
  | .vxadd _ d a b => some (vopWord 0x11 d a b 0)
  | .vld _ d a imm => some (word2 0x19 (regBits d) (regBits a) imm)
  | .vst _ d a imm => some (word2 0x1A (regBits d) (regBits a) imm)
  | .qpush _ v q n fin rsvd =>
    some ((0x1C : BitVec 6) ++ regBits v ++ (rsvd.extractLsb' 10 5) ++ (BitVec.ofFin q : BitVec 3) ++ (BitVec.ofFin n : BitVec 2)
      ++ BitVec.ofBool fin ++ (rsvd.extractLsb' 0 10))
  | .qpop _ d q n rsvd =>
    some ((0x1D : BitVec 6) ++ regBits d ++ (rsvd.extractLsb' 11 5) ++ (BitVec.ofFin q : BitVec 3) ++ (BitVec.ofFin n : BitVec 2)
      ++ (rsvd.extractLsb' 0 11))
  | .qcount _ d q rsvd =>
    some ((0x1E : BitVec 6) ++ regBits d ++ (rsvd.extractLsb' 13 5) ++ (BitVec.ofFin q : BitVec 3) ++ (rsvd.extractLsb' 0 13))
  | .put _ a b count => some (word3 0x20 0 (regBits a) (regBits b) count)
  | .radd _ a b count => some (word3 0x21 0 (regBits a) (regBits b) count)
  | .dmaq _ ch rsvd a imm => some ((0x24 : BitVec 6) ++ BitVec.ofBool rsvd ++ (BitVec.ofFin ch : BitVec 4) ++ regBits a ++ imm)
  | .fence _ rsvd imm => some (waitWord 0x28 rsvd imm)
  | .bar _ rsvd imm => some (waitWord 0x29 rsvd imm)
  | .waitt _ rsvd imm => some (waitWord 0x2A rsvd imm)
  | .csrr _ d rsvd imm => some (word2 0x2C (regBits d) rsvd imm)
  | .csrw _ rsvd a imm => some (word2 0x2D rsvd (regBits a) imm)
  | .endContext _ rsvd => some ((0x30 : BitVec 6) ++ rsvd)
  | .trap _ rsvd imm => some (waitWord 0x31 rsvd imm)
  | _ => none

/-- Where and by which core a core's instruction is issued. -/
def Instr.issueOf : Instr → Option Issue
  | .nop i _ | .add i _ _ _ | .sub i _ _ _ | .and i _ _ _ | .or i _ _ _ | .xor i _ _ _ | .shl i _ _ _ | .shr i _ _ _
  | .sar i _ _ _ | .mul i _ _ _ | .mulhu i _ _ _ | .slt i _ _ _ | .sltu i _ _ _ | .addi i _ _ _ | .andi i _ _ _ | .ori i _ _ _
  | .shli i _ _ _ | .lui i _ _ | .ld i _ _ _ | .st i _ _ _ | .beq i _ _ _ | .bne i _ _ _ | .blt i _ _ _ | .bltu i _ _ _
  | .jal i _ _ | .jr i _ _ _ | .mdload i _ _ _ _ | .mma i _ _ | .waitm i _ _ | .vadd i _ _ _ | .vsub i _ _ _ | .vmul i _ _ _
  | .vfma i _ _ _ _ | .vmin i _ _ _ | .vmax i _ _ _ | .vabs i _ _ | .vneg i _ _ | .vrcp i _ _ | .vrsq i _ _ | .vexp2 i _ _
  | .vlog2 i _ _ | .vrsum i _ _ | .vbcast i _ _ _ | .vmov i _ _ | .vcvt i _ _ _ _ | .vxadd i _ _ _ | .vld i _ _ _
  | .vst i _ _ _ | .qpush i _ _ _ _ _ | .qpop i _ _ _ _ | .qcount i _ _ _ | .put i _ _ _ | .radd i _ _ _ | .dmaq i _ _ _ _
  | .fence i _ _ | .bar i _ _ | .waitt i _ _ | .csrr i _ _ _ | .csrw i _ _ _ | .endContext i _ | .trap i _ _ => some i
  | _ => none

end Sys2Proof
end

