-- ==== Sys2Proof/Machine/Bits.lean ====
section
/-! DEFINITION. Bit fields, byte order, saturating counts, sparse tables and byte memories, CRC-32:
the helpers every other file of the machine uses. -/

namespace Sys2Proof

/-- Join register fields given as (low bit, width, value) into a word (R6, R9). -/
def packFields {n : Nat} (fs : List (Nat × Nat × Nat)) : BitVec n :=
  BitVec.ofNat n (fs.foldl (fun a f => a + (f.2.2 % 2 ^ f.2.1) * 2 ^ f.1) 0)

/-- The field of `width` bits at bit `lo` of a number (R6). -/
def bitsAt (x lo width : Nat) : Nat := (x / 2 ^ lo) % 2 ^ width

/-- A count that stops at its largest value. -/
def satInc {w : Nat} (x : BitVec w) : BitVec w := if x = BitVec.allOnes w then x else x + 1

/-- A count raised by `n` that stops at its largest value. -/
def satAdd {w : Nat} (x : BitVec w) (n : Nat) : BitVec w :=
  if x.toNat + n ≥ 2 ^ w then BitVec.allOnes w else BitVec.ofNat w (x.toNat + n)

/-- A number that stops at the largest value of `w` bits. -/
def satOf (w n : Nat) : BitVec w := if n ≥ 2 ^ w then BitVec.allOnes w else BitVec.ofNat w n

/-- `x` with bit `i` set to `b`. -/
def setBit {w : Nat} (x : BitVec w) (i : Nat) (b : Bool) : BitVec w :=
  if b then x ||| BitVec.ofNat w (2 ^ i) else x &&& ~~~ BitVec.ofNat w (2 ^ i)

/-- The number of ones among the bits of `x`. -/
def popCount {w : Nat} (x : BitVec w) : Nat :=
  (List.range w).foldl (fun a i => if x.getLsbD i then a + 1 else a) 0

/-- The indices of the ones of `x`, rising. -/
def onesOf {w : Nat} (x : BitVec w) : List Nat := (List.range w).filter (fun i => x.getLsbD i)

/-- Byte `i` of a word of bits (R6). -/
def byteOf {w : Nat} (x : BitVec w) (i : Nat) : Byte := x.extractLsb' (8 * i) 8

/-- The `n` low bytes of a number, lowest first (R6). -/
def bytesOfNat (n x : Nat) : List Byte := (List.range n).map fun i => BitVec.ofNat 8 (x / 2 ^ (8 * i))

/-- The number that bytes spell, lowest first (R6). -/
def natOfBytes (bs : List Byte) : Nat := bs.foldr (fun b a => b.toNat + 256 * a) 0

/-- Bytes as a word of bits, lowest byte in the lowest bits. -/
def wordOfBytes (w : Nat) (bs : List Byte) : BitVec w := BitVec.ofNat w (natOfBytes bs)

/-- The least multiple of `m` that is at least `n`. -/
def roundUp (n m : Nat) : Nat := (n + m - 1) / m * m

/-- Division rounded up. -/
def ceilDiv (n m : Nat) : Nat := (n + m - 1) / m

/-- `x` in two's complement of `w` bits, saturating. -/
def satInt (w : Nat) (x : Int) : BitVec w :=
  if x ≥ 2 ^ (w - 1) then BitVec.ofNat w (2 ^ (w - 1) - 1)
  else if x < -(2 ^ (w - 1)) then BitVec.ofNat w (2 ^ (w - 1)) else BitVec.ofInt w x

/-- Replace element `i` of a list; a list without one is left. -/
def listSet {α : Type} (l : List α) (i : Nat) (x : α) : List α := l.set i x

/-- The first number below `n` that `p` accepts. -/
def firstBelow (n : Nat) (p : Nat → Bool) : Option Nat := (List.range n).find? p

/-- The listed entry for a key, or the value an unlisted key reads as. -/
def Table.get {α : Type} (d : α) : Table α → Nat → α
  | [], _ => d
  | (k, v) :: t, j => if j = k then v else Table.get d t j

/-- Remove the entry of a key. -/
def Table.erase {α : Type} : Table α → Nat → Table α
  | [], _ => []
  | (k, v) :: t, j => if j = k then Table.erase t j else (k, v) :: Table.erase t j

/-- Put an entry at its place in the rising order, replacing one with the same key. -/
def Table.insert {α : Type} : Table α → Nat → α → Table α
  | [], j, x => [(j, x)]
  | (k, v) :: t, j, x =>
    if j < k then (j, x) :: (k, v) :: t
    else if j = k then (j, x) :: t
    else (k, v) :: Table.insert t j x

/-- Set a key's value, keeping the canonical form: the default value is not listed. -/
def Table.set {α : Type} [DecidableEq α] (d : α) (t : Table α) (j : Nat) (x : α) : Table α :=
  if x = d then Table.erase t j else Table.insert t j x

/-- Change a key's value. -/
def Table.upd {α : Type} [DecidableEq α] (d : α) (t : Table α) (j : Nat) (f : α → α) : Table α :=
  Table.set d t j (f (Table.get d t j))

/-- Every listed key is above `b` and rising. -/
def Table.above {α : Type} : Table α → Nat → Bool
  | [], _ => true
  | (k, _) :: t, b => decide (b ≤ k) && Table.above t (k + 1)

/-- The canonical form of a table. -/
def Table.wf {α : Type} [DecidableEq α] (d : α) (t : Table α) : Bool :=
  Table.above t 0 && t.all (fun e => decide (e.2 ≠ d))

/-- A byte of memory; an unlisted byte is zero (R140). -/
def Mem.get (m : Mem) (a : Nat) : Byte := Table.get (0 : Byte) m a

/-- Write a byte of memory; a zero byte is not listed. -/
def Mem.set (m : Mem) (a : Nat) (b : Byte) : Mem := Table.set (0 : Byte) m a b

/-- The canonical form of a memory: addresses strictly rising, no zero byte listed. -/
def Mem.wf (m : Mem) : Bool := Table.wf (0 : Byte) m

/-- The `n` bytes from an address upward. -/
def Mem.read (m : Mem) (a n : Nat) : List Byte := (List.range n).map fun i => Mem.get m (a + i)

/-- Write bytes from an address upward. -/
def Mem.write : Mem → Nat → List Byte → Mem
  | m, _, [] => m
  | m, a, b :: bs => Mem.write (Mem.set m a b) (a + 1) bs

/-- Set every byte of a range to zero. -/
def Mem.clear (m : Mem) (a n : Nat) : Mem := m.filter fun c => decide (c.1 < a) || decide (a + n ≤ c.1)

/-- The `n` bytes from an address upward as one number, lowest first (R6). -/
def Mem.readNat (m : Mem) (a n : Nat) : Nat := natOfBytes (Mem.read m a n)

/-- A rising list of numbers with `x` in it. -/
def insertNat (x : Nat) : List Nat → List Nat
  | [] => [x]
  | y :: t => if x < y then x :: y :: t else if x = y then y :: t else y :: insertNat x t

/-- `n` bits of the CRC-32 of IEEE 802.3, reflected form. -/
def crcBits : Nat → Nat → Nat
  | 0, c => c
  | n + 1, c => crcBits n (if c % 2 = 1 then Nat.xor (c / 2) 0xEDB88320 else c / 2)

/-- The CRC-32 register after some bytes; the match makes each byte's value a numeral before the next (it changes nothing). -/
def crcBytes : List Byte → Nat → Nat
  | [], c => c
  | b :: t, c => match crcBits 8 (Nat.xor c b.toNat) with
    | 0 => crcBytes t 0
    | k + 1 => crcBytes t (k + 1)

/-- CRC-32 as IEEE 802.3 defines it (R201, R255, R260, R387, R390, R455). -/
def crc32 (bs : List Byte) : BitVec 32 := ~~~ BitVec.ofNat 32 (crcBytes bs 0xFFFFFFFF)

/-- `n` zero bytes. -/
def zeros (n : Nat) : List Byte := List.replicate n 0

end Sys2Proof
end

