-- ==== Sys2Proof/Machine/Fp.lean ====
section
/-! DEFINITION. Number formats (R40 to R43), exact dyadic arithmetic, and the one rounding every
result goes through (R65 to R68, R89). -/

namespace Sys2Proof.Machine

/-- A number format of the table "Format codes", by its code (R40). -/
inductive NumFmt where
  | fp32 | bf16 | fp16 | e4m3 | e5m2 | e3m2 | e2m3 | e2m1 | int8 | int32 | xf
  deriving DecidableEq, Repr

/-- The format a 4-bit code names; codes 0xB to 0xF are reserved (R40). -/
def NumFmt.ofCode (c : Nat) : Option NumFmt :=
  [NumFmt.fp32, .bf16, .fp16, .e4m3, .e5m2, .e3m2, .e2m3, .e2m1, .int8, .int32, .xf][c]?

/-- Width of an element in bits (R40). -/
def NumFmt.bits : NumFmt → Nat
  | .fp32 => 32 | .bf16 => 16 | .fp16 => 16 | .e4m3 => 8 | .e5m2 => 8 | .e3m2 => 6 | .e2m3 => 6
  | .e2m1 => 4 | .int8 => 8 | .int32 => 32 | .xf => 160

/-- Mantissa bits t of a floating format (R41). -/
def NumFmt.mant : NumFmt → Nat
  | .fp32 => 23 | .bf16 => 7 | .fp16 => 10 | .e4m3 => 3 | .e5m2 => 2 | .e3m2 => 2 | .e2m3 => 3
  | .e2m1 => 1 | _ => 0

/-- Exponent bits of a floating format (R41). -/
def NumFmt.expBits : NumFmt → Nat
  | .fp32 => 8 | .bf16 => 8 | .fp16 => 5 | .e4m3 => 4 | .e5m2 => 5 | .e3m2 => 3 | .e2m3 => 2
  | .e2m1 => 2 | _ => 0

/-- Bias b of a floating format (R41). -/
def NumFmt.bias : NumFmt → Int
  | .fp32 => 127 | .bf16 => 127 | .fp16 => 15 | .e4m3 => 7 | .e5m2 => 15 | .e3m2 => 3 | .e2m3 => 1
  | .e2m1 => 1 | _ => 0

/-- Unit exponent λ = 1 - b - t; 0 for integers (R42). -/
def NumFmt.unit (f : NumFmt) : Int :=
  match f with
  | .int8 => 0 | .int32 => 0 | .xf => 0 | _ => 1 - f.bias - f.mant

/-- Whether the format's top exponent holds Inf and NaN (R41). -/
def NumFmt.hasInf : NumFmt → Bool
  | .fp32 => true | .bf16 => true | .fp16 => true | .e5m2 => true | _ => false

/-- Whether the format is an integer (R40). -/
def NumFmt.isInt : NumFmt → Bool
  | .int8 => true | .int32 => true | _ => false

/-- The largest finite magnitude, as a scaled integer at the format's unit exponent (R41, R42). -/
def NumFmt.maxScaled : NumFmt → Nat
  | .fp32 => (2 ^ 24 - 1) * 2 ^ 253 | .bf16 => 255 * 2 ^ 253 | .fp16 => 2047 * 2 ^ 29
  | .e4m3 => 229376 | .e5m2 => 3758096384 | .e3m2 => 448 | .e2m3 => 60 | .e2m1 => 12
  | _ => 0

/-- The encoding of the largest finite magnitude, sign 0 (R41). -/
def NumFmt.maxCode : NumFmt → Nat
  | .fp32 => 0x7F7FFFFF | .bf16 => 0x7F7F | .fp16 => 0x7BFF | .e4m3 => 0x7E | .e5m2 => 0x7B
  | .e3m2 => 0x1F | .e2m3 => 0x1F | .e2m1 => 0x7 | _ => 0

/-- The encoding of +Inf where the format has one (R41). -/
def NumFmt.infCode : NumFmt → Nat
  | .fp32 => 0x7F800000 | .bf16 => 0x7F80 | .fp16 => 0x7C00 | .e5m2 => 0x7C | _ => 0

/-- The canonical NaN (R63); for formats without one, what VCVT writes for a NaN (R90). -/
def NumFmt.nanCode : NumFmt → Nat
  | .fp32 => 0x7FC00000 | .bf16 => 0x7FC0 | .fp16 => 0x7E00 | .e4m3 => 0x7F | .e5m2 => 0x7E
  | .e3m2 => 0x3F | .e2m3 => 0x3F | .e2m1 => 0xF | .int8 => 0x80 | .int32 => 0x80000000 | .xf => 0

/-- A decoded value: NaN (signalling or quiet), an infinity, or (-1)^neg × m × 2^e, with both zeros
(R42). -/
inductive FpVal where
  | nan (signalling : Bool)
  | inf (neg : Bool)
  | fin (neg : Bool) (m : Nat) (e : Int)
  deriving DecidableEq, Repr

/-- Whether a value is a NaN. -/
def FpVal.isNan : FpVal → Bool
  | .nan _ => true
  | _ => false

/-- Whether a value is a signalling NaN. -/
def FpVal.isSnan : FpVal → Bool
  | .nan b => b
  | _ => false

/-- The exponent field of an encoding (R41). -/
def NumFmt.expField (f : NumFmt) (x : Nat) : Nat := bitsAt x f.mant f.expBits

/-- The mantissa field of an encoding (R41). -/
def NumFmt.mantField (f : NumFmt) (x : Nat) : Nat := bitsAt x 0 f.mant

/-- The sign bit of an encoding (R41). -/
def NumFmt.signBit (f : NumFmt) (x : Nat) : Bool := x.testBit (f.bits - 1)

/-- Two's complement value of the low `w` bits. -/
def signedOf (w x : Nat) : Int :=
  let y := x % 2 ^ w
  if y < 2 ^ (w - 1) then (y : Int) else (y : Int) - 2 ^ w

/-- The significand integer of an element: N′ shifted down to its own exponent (R42, R54). -/
def NumFmt.signif (f : NumFmt) (x : Nat) : Nat :=
  if f.expField x = 0 then f.mantField x else 2 ^ f.mant + f.mantField x

/-- Decode an encoding (R41, R42). Integers are exact values. -/
def NumFmt.decode (f : NumFmt) (x : Nat) : FpVal :=
  if f.isInt then
    let v := signedOf f.bits x
    .fin (decide (v < 0)) v.natAbs 0
  else
    let e := f.expField x
    let m := f.mantField x
    let s := f.signBit x
    if f.hasInf && e == 2 ^ f.expBits - 1 then
      if m = 0 then .inf s else .nan (!m.testBit (f.mant - 1))
    else if f = .e4m3 && e == 15 && m == 7 then .nan false
    else .fin s (f.signif x) (f.unit + (if e = 0 then 0 else (e : Int) - 1))

/-- An exact number m × 2^e. -/
structure Dy where
  m : Int
  e : Int
  deriving DecidableEq, Repr

/-- m × 2^e written at a smaller or equal exponent. -/
def Dy.at (x : Dy) (e : Int) : Int := x.m * 2 ^ (x.e - e).toNat

/-- Exact sum. -/
def Dy.add (x y : Dy) : Dy :=
  if x.m = 0 then y else if y.m = 0 then x else
  let e := min x.e y.e
  ⟨x.at e + y.at e, e⟩

/-- Exact product. -/
def Dy.mul (x y : Dy) : Dy := ⟨x.m * y.m, x.e + y.e⟩

/-- A finite value as an exact number. -/
def Dy.ofParts (neg : Bool) (m : Nat) (e : Int) : Dy := ⟨if neg then -(m : Int) else m, e⟩

/-- The rounding modes of RND (R49, R65); SR carries its 32-bit random value R (R67). -/
inductive Rnd where
  | rne | rtz
  | sr (r : Nat)
  deriving DecidableEq, Repr

/-- A magnitude brought to a lattice: n × 2^u, whether bits were lost, and whether |X| is at least n
plus a half below rounding up was decided. -/
structure Rounded where
  n : Nat
  u : Int
  inexact : Bool
  deriving DecidableEq, Repr

/-- Round m × 2^e to the lattice of multiples of 2^u by R65 and R68. The neighbours of a number above
the largest finite value are those of an unbounded exponent range (DEDUCED, log 13). -/
def roundAt (rnd : Rnd) (m : Nat) (e u : Int) : Rounded :=
  if e ≥ u then ⟨m * 2 ^ (e - u).toNat, u, false⟩
  else
    let sh := (u - e).toNat
    let q := m / 2 ^ sh
    let r := m % 2 ^ sh
    if r = 0 then ⟨q, u, false⟩
    else
      let up := match rnd with
        | .rtz => false
        | .rne => decide (2 * r > 2 ^ sh) || (decide (2 * r = 2 ^ sh) && q % 2 == 1)
        | .sr x => decide (x < r * 2 ^ 32 / 2 ^ sh)
      ⟨if up then q + 1 else q, u, true⟩

/-- The number of bits of a magnitude. -/
def bitLen (m : Nat) : Nat := if m = 0 then 0 else m.log2 + 1

/-- The unit of the lattice that brackets m × 2^e in a format of `t` mantissa bits whose least unit
exponent is `lam` (R42). -/
def latticeUnit (t : Nat) (lam : Int) (m : Nat) (e : Int) : Int :=
  max ((bitLen m : Int) + e - 1 - t) lam

/-- Flags an arithmetic result raises. -/
structure FpFlags where
  invalid : Bool := false
  divzero : Bool := false
  overflow : Bool := false
  underflow : Bool := false
  inexact : Bool := false
  nanOut : Bool := false
  deriving DecidableEq, Repr

/-- Join the flags of two results. -/
def FpFlags.or (a b : FpFlags) : FpFlags :=
  { invalid := a.invalid || b.invalid, divzero := a.divzero || b.divzero,
    overflow := a.overflow || b.overflow, underflow := a.underflow || b.underflow,
    inexact := a.inexact || b.inexact, nanOut := a.nanOut || b.nanOut }

/-- The encoding of n × 2^u in a floating format, for a number the format represents (R42). -/
def NumFmt.encodeMag (f : NumFmt) (n : Nat) (u : Int) : Nat :=
  let n1 := if n = 2 ^ (f.mant + 1) then n / 2 else n
  let u1 := if n = 2 ^ (f.mant + 1) then u + 1 else u
  if n1 < 2 ^ f.mant then n1
  else ((u1 - f.unit).toNat + 1) * 2 ^ f.mant + (n1 - 2 ^ f.mant)

/-- The sign bit put onto an encoding. -/
def NumFmt.withSign (f : NumFmt) (neg : Bool) (x : Nat) : Nat :=
  if neg then x + 2 ^ (f.bits - 1) else x

/-- Whether m × 2^e overflows the format: under RNE when it is at least the largest finite value and
half a unit in the last place; under SR and RTZ by the rounded and the exact magnitude (R66). -/
def NumFmt.overflows (f : NumFmt) (rnd : Rnd) (m : Nat) (e : Int) (r : Rounded) : Bool :=
  let lim : Dy := ⟨f.maxScaled, f.unit⟩
  match rnd with
  | .rne =>
    let ulpE := (bitLen f.maxScaled : Int) + f.unit - 1 - f.mant
    let l2 := (lim.add ⟨1, ulpE - 1⟩)
    let x : Dy := ⟨m, e⟩
    let b := min x.e l2.e
    decide (x.at b ≥ l2.at b)
  | .rtz => let x : Dy := ⟨m, e⟩
            let b := min x.e lim.e
            decide (x.at b > lim.at b)
  | .sr _ => let x : Dy := ⟨r.n, r.u⟩
             let b := min x.e lim.e
             decide (x.at b > lim.at b)

/-- Tininess after rounding: the value rounded to nearest even with an unbounded exponent lies below
the smallest normal magnitude (R89). -/
def NumFmt.tiny (f : NumFmt) (m : Nat) (e : Int) : Bool :=
  let r := roundAt .rne m e ((bitLen m : Int) + e - 1 - f.mant)
  let x : Dy := ⟨r.n, r.u⟩
  let lim : Dy := ⟨1, f.unit + f.mant⟩
  let b := min x.e lim.e
  decide (m ≠ 0) && decide (x.at b < lim.at b)

/-- What an infinity becomes in a destination (R66, R90). -/
def NumFmt.putInf (f : NumFmt) (clamp neg : Bool) : Nat × FpFlags :=
  match f with
  | .int8 => (if neg then 0x80 else 0x7F, { overflow := true })
  | .int32 => (if neg then 0x80000000 else 0x7FFFFFFF, { overflow := true })
  | .e3m2 | .e2m3 | .e2m1 =>
    (f.withSign neg f.maxCode, if clamp then { overflow := true } else { invalid := true })
  | .e4m3 =>
    if clamp then (f.withSign neg f.maxCode, { overflow := true })
    else (f.nanCode, { invalid := true })
  | _ => if clamp then (f.withSign neg f.maxCode, { overflow := true })
         else (f.withSign neg f.infCode, {})

/-- What a finite overflow becomes in a floating destination (R66, R90). -/
def NumFmt.putOverflow (f : NumFmt) (rnd : Rnd) (clamp neg : Bool) : Nat :=
  if f.hasInf && !clamp && rnd != .rtz then f.withSign neg f.infCode else f.withSign neg f.maxCode

/-- What a NaN becomes in a destination (R63, R66, R90): INVALID for a destination without a NaN. -/
def NumFmt.putNan (f : NumFmt) : Nat × FpFlags :=
  match f with
  | .int8 | .int32 | .e3m2 | .e2m3 | .e2m1 => (f.nanCode, { invalid := true, nanOut := true })
  | _ => (f.nanCode, { nanOut := true })

/-- Round an exact finite value to a floating format (R65, R66): the encoding and the flags. -/
def NumFmt.roundFin (f : NumFmt) (rnd : Rnd) (clamp neg : Bool) (m : Nat) (e : Int) : Nat × FpFlags :=
  if m = 0 then (f.withSign neg 0, {})
  else
    let r := roundAt rnd m e (latticeUnit f.mant f.unit m e)
    if f.overflows rnd m e r then
      (f.putOverflow rnd clamp neg, { overflow := true, inexact := true })
    else (f.withSign neg (f.encodeMag r.n r.u),
          { inexact := r.inexact, underflow := r.inexact && f.tiny m e })

/-- Round an exact value to a two's complement integer of the format's width, clamping (R70, R90). -/
def NumFmt.roundInt (f : NumFmt) (rnd : Rnd) (neg : Bool) (m : Nat) (e : Int) : Nat × FpFlags :=
  let r := roundAt rnd m e 0
  let v : Int := if neg then -(r.n : Int) else r.n
  if v ≥ 2 ^ (f.bits - 1) then (2 ^ (f.bits - 1) - 1, { overflow := true })
  else if v < -(2 ^ (f.bits - 1)) then (2 ^ (f.bits - 1), { overflow := true })
  else ((BitVec.ofInt f.bits v).toNat, { inexact := r.inexact })

/-- Convert a decoded value to a format other than XF (R63, R65, R66, R70, R90). -/
def NumFmt.convert (f : NumFmt) (rnd : Rnd) (clamp : Bool) : FpVal → Nat × FpFlags
  | .nan _ => f.putNan
  | .inf neg => f.putInf clamp neg
  | .fin neg m e => if f.isInt then f.roundInt rnd neg m e else f.roundFin rnd clamp neg m e

/-- An exact number as a value; an exact zero takes the given sign. -/
def Dy.val (x : Dy) (zeroNeg : Bool) : FpVal :=
  if x.m = 0 then .fin zeroNeg 0 0 else .fin (decide (x.m < 0)) x.m.natAbs x.e

/-- IEEE 754 sum before rounding: the value, and whether the operation is invalid. An exact zero sum
is -0 only when both operands are negative (round to nearest). -/
def FpVal.add (x y : FpVal) : FpVal × Bool :=
  match x, y with
  | .nan a, b => (.nan false, a || b.isSnan)
  | _, .nan b => (.nan false, b)
  | .inf a, .inf b => if a = b then (.inf a, false) else (.nan false, true)
  | .inf a, _ => (.inf a, false)
  | _, .inf b => (.inf b, false)
  | .fin a m e, .fin b n k => (((Dy.ofParts a m e).add (Dy.ofParts b n k)).val (a && b), false)

/-- IEEE 754 product before rounding. -/
def FpVal.mul (x y : FpVal) : FpVal × Bool :=
  match x, y with
  | .nan a, b => (.nan false, a || b.isSnan)
  | _, .nan b => (.nan false, b)
  | .inf a, .inf b => (.inf (a != b), false)
  | .inf a, .fin b n _ => if n = 0 then (.nan false, true) else (.inf (a != b), false)
  | .fin a m _, .inf b => if m = 0 then (.nan false, true) else (.inf (a != b), false)
  | .fin a m e, .fin b n k => (.fin (a != b) (m * n) (e + k), false)

/-- The sign of a value inverted. -/
def FpVal.neg : FpVal → FpVal
  | .nan b => .nan b
  | .inf a => .inf (!a)
  | .fin a m e => .fin (!a) m e

/-- Multiply a value by 2^k exactly. -/
def FpVal.scale (k : Int) : FpVal → FpVal
  | .fin a m e => .fin a m (e + k)
  | x => x

/-- Round a value to FP32 with round to nearest even, with the operation's own invalid flag (R89). -/
def fp32Round (v : FpVal × Bool) : BitVec 32 × FpFlags :=
  let r := NumFmt.fp32.convert .rne false v.1
  (BitVec.ofNat 32 r.1, { r.2 with invalid := r.2.invalid || v.2 })

/-- An FP32 encoding decoded (R42). -/
def fp32Val (x : BitVec 32) : FpVal := NumFmt.fp32.decode x.toNat

/-- FP32 sum, rounded once (R83, R89). -/
def fp32Add (x y : BitVec 32) : BitVec 32 × FpFlags := fp32Round ((fp32Val x).add (fp32Val y))

/-- FP32 difference (R83, R89). A NaN subtrahend stays a NaN. -/
def fp32Sub (x y : BitVec 32) : BitVec 32 × FpFlags := fp32Round ((fp32Val x).add (fp32Val y).neg)

/-- FP32 product (R83, R89). -/
def fp32Mul (x y : BitVec 32) : BitVec 32 × FpFlags := fp32Round ((fp32Val x).mul (fp32Val y))

/-- FP32 fused multiply-add, rounded once (R83, R89). Zero times infinity sets V_INVALID whatever the addend, a quiet NaN
too, which IEEE 754 leaves open (DESIGN CHOICE, log 14). -/
def fp32Fma (x y z : BitVec 32) : BitVec 32 × FpFlags :=
  let p := (fp32Val x).mul (fp32Val y)
  let s := p.1.add (fp32Val z)
  fp32Round (s.1, p.2 || s.2)

/-- Order of two values that are no NaN, -0 below +0 (R83). -/
def FpVal.lt (x y : FpVal) : Bool :=
  match x, y with
  | .inf a, .inf b => a && !b
  | .inf a, _ => a
  | _, .inf b => !b
  | .fin a m e, .fin b n k =>
    if m = 0 ∧ n = 0 then a && !b
    else
      let p := Dy.ofParts a m e
      let q := Dy.ofParts b n k
      let l := min e k
      decide (p.at l < q.at l)
  | _, _ => false

/-- IEEE 754 minimum or maximum: NaN if either is NaN, -0 below +0 (R83). -/
def fp32Pick (max : Bool) (x y : BitVec 32) : BitVec 32 × FpFlags :=
  let a := fp32Val x
  let b := fp32Val y
  if a.isNan || b.isNan then
    (BitVec.ofNat 32 NumFmt.fp32.nanCode, { invalid := a.isSnan || b.isSnan, nanOut := true })
  else if b.lt a then (if max then x else y, {}) else (if max then y else x, {})

/-- Magnitude; a NaN result is the canonical NaN (R63, R83). -/
def fp32Abs (x : BitVec 32) : BitVec 32 × FpFlags :=
  if (fp32Val x).isNan then (0x7FC00000, {}) else (x &&& 0x7FFFFFFF, {})

/-- Sign inverted; a NaN result is the canonical NaN (R63, R83). -/
def fp32Neg (x : BitVec 32) : BitVec 32 × FpFlags :=
  if (fp32Val x).isNan then (0x7FC00000, {}) else (x ^^^ 0x80000000, {})

/-- 1 / x, correctly rounded (R89, R101). The quotient is taken to 64 bits more than the divisor has,
with a sticky last bit. -/
def fp32Rcp (x : BitVec 32) : BitVec 32 × FpFlags :=
  match fp32Val x with
  | .nan b => (0x7FC00000, { invalid := b, nanOut := true })
  | .inf a => (BitVec.ofNat 32 (NumFmt.fp32.withSign a 0), {})
  | .fin a m e =>
    if m = 0 then (BitVec.ofNat 32 (NumFmt.fp32.withSign a 0x7F800000), { divzero := true })
    else
      let q := 2 ^ 64 / m
      let st := if 2 ^ 64 % m = 0 then 0 else 1
      fp32Round (.fin a (2 * q + st) (-e - 65), false)

/-- Integer square root by bits: the largest r below 2^n with r² ≤ x. -/
def isqrtBits (x : Nat) : Nat → Nat → Nat
  | 0, r => r
  | n + 1, r => let c := r + 2 ^ n
                isqrtBits x n (if c * c ≤ x then c else r)

/-- 1 / √x, correctly rounded (R89). Of a zero the infinity of its sign without a flag, since V_DIVZERO is
VRCP's and VLOG2's alone (R101); of a negative number a NaN with V_INVALID (IEEE 754; DEDUCED, log 14). -/
def fp32Rsq (x : BitVec 32) : BitVec 32 × FpFlags :=
  match fp32Val x with
  | .nan b => (0x7FC00000, { invalid := b, nanOut := true })
  | .inf a => if a then (0x7FC00000, { invalid := true, nanOut := true }) else (0, {})
  | .fin a m e =>
    if m = 0 then (BitVec.ofNat 32 (NumFmt.fp32.withSign a 0x7F800000), {})
    else if a then (0x7FC00000, { invalid := true, nanOut := true })
    else
      let m1 := if e % 2 = 0 then m else 2 * m
      let e1 := if e % 2 = 0 then e else e - 1
      let y := 2 ^ 128 / m1
      let r := isqrtBits y 65 0
      let st := if r * r * m1 = 2 ^ 128 then 0 else 1
      fp32Round (.fin false (2 * r + st) (-(e1 / 2) - 65), false)

/-- 2^(2^-(i+1)) to 192 fraction bits, by repeated square roots. -/
def exp2Roots : Nat → Nat → List Nat
  | 0, _ => []
  | n + 1, r => let s := isqrtBits (r * 2 ^ 192) 194 0
                s :: exp2Roots n s

/-- The product of the roots that the fraction bits select, to 192 fraction bits. -/
def exp2Frac (frac bits : Nat) : Nat :=
  ((exp2Roots bits (2 ^ 193)).zipIdx).foldl
    (fun a p => if frac.testBit (bits - 1 - p.2) then a * p.1 / 2 ^ 192 else a) (2 ^ 192)

/-- 2^x, correctly rounded (R89). Below 2^-26 in magnitude the result rounds to 1. -/
def fp32Exp2 (x : BitVec 32) : BitVec 32 × FpFlags :=
  match fp32Val x with
  | .nan b => (0x7FC00000, { invalid := b, nanOut := true })
  | .inf a => (if a then 0 else 0x7F800000, {})
  | .fin a m e =>
    if m = 0 then (0x3F800000, {})
    else if (bitLen m : Int) + e ≤ -26 then (0x3F800000, { inexact := true })
    else if (bitLen m : Int) + e ≥ 10 then
      if a then fp32Round (.fin false 1 (-400), false) else fp32Round (.fin false 1 400, false)
    else
      let v := (Dy.ofParts a m (if e > 0 then 0 else e)).m * (if e > 0 then 2 ^ e.toNat else 1)
      let fb := if e > 0 then 0 else (-e).toNat
      let ip := v / 2 ^ fb
      let frac := (v % 2 ^ fb).toNat
      if frac = 0 then fp32Round (.fin false 1 ip, false)
      else fp32Round (.fin false (2 * exp2Frac frac fb + 1) (ip - 193), false)

/-- `n` fraction bits of log2 of y in [1, 2), by repeated squaring at 400 fraction bits. -/
def log2Bits : Nat → Nat → Nat → Nat
  | 0, _, acc => acc
  | n + 1, y, acc =>
    let z := y * y / 2 ^ 400
    if z ≥ 2 ^ 401 then log2Bits n (z / 2) (2 * acc + 1) else log2Bits n z (2 * acc)

/-- log2 x, correctly rounded (R89, R101). Of a zero -Inf with V_DIVZERO, of a negative number a NaN
with V_INVALID (IEEE 754; DEDUCED, log 14). -/
def fp32Log2 (x : BitVec 32) : BitVec 32 × FpFlags :=
  match fp32Val x with
  | .nan b => (0x7FC00000, { invalid := b, nanOut := true })
  | .inf a => if a then (0x7FC00000, { invalid := true, nanOut := true }) else (0x7F800000, {})
  | .fin a m e =>
    if m = 0 then (0xFF800000, { divzero := true })
    else if a then (0x7FC00000, { invalid := true, nanOut := true })
    else
      let l := bitLen m
      let ip : Int := (l : Int) - 1 + e
      if m = 2 ^ (l - 1) then fp32Round ((Dy.mk ip 0).val false, false)
      else
        let f := log2Bits 128 (m * 2 ^ 400 / 2 ^ (l - 1)) 0
        let d : Dy := ⟨(ip * 2 ^ 128 + f) * 2 + 1, -129⟩
        fp32Round (d.val false, false)

/-- A function of two hash steps: mix64 of R67. -/
def mix64 (x : Word) : Word :=
  let x := x ^^^ (x >>> 30)
  let x := x * 0xBF58476D1CE4E5B9#64
  let x := x ^^^ (x >>> 27)
  let x := x * 0x94D049BB133111EB#64
  x ^^^ (x >>> 31)

/-- The 32-bit random value of stochastic rounding (R67). -/
def srBits (seed : Word) (tensorId : BitVec 32) (q : Word) : Nat :=
  let k := mix64 (seed ^^^ (tensorId.setWidth 64 * 0x9E3779B97F4A7C15#64))
  let z := mix64 (k + q * 0xD1B54A32D192ED03#64)
  (z >>> 32).toNat

/-- The rounding that a 2-bit RND code selects; 3 is reserved (R49). -/
def Rnd.ofCode (code : Nat) (r : Nat) : Option Rnd :=
  match code with
  | 0 => some .rne
  | 1 => some .rtz
  | 2 => some (.sr r)
  | _ => none

/-- Element `i` of packed elements of `w` bits, from byte 0 (R43). -/
def packedElem (x w i : Nat) : Nat := bitsAt x (w * i) w

end Sys2Proof.Machine
end

