-- ==== Sys2Proof/Machine/Flags.lean ====
section
/-! DEFINITION. The flags of matrix results (R61, R66, R73) and the long accumulator they come from
(R53 to R58, R71, R72). -/

namespace Sys2Proof.Machine

/-- The flags one element of D raises (R73). -/
structure ElemFlags where
  sat : Bool := false
  inexact : Bool := false
  invalid : Bool := false
  nanOut : Bool := false
  wbOvf : Bool := false
  deriving DecidableEq, Repr

/-- Join the flags of two elements. -/
def ElemFlags.or (a b : ElemFlags) : ElemFlags :=
  { sat := a.sat || b.sat, inexact := a.inexact || b.inexact, invalid := a.invalid || b.invalid,
    nanOut := a.nanOut || b.nanOut, wbOvf := a.wbOvf || b.wbOvf }

/-- The classes of an exact exchange value (R71). -/
inductive XfClass where
  | fin | nan | posInf | negInf
  deriving DecidableEq, Repr

/-- An exact exchange value (R71). -/
structure Xf where
  v : Int := 0
  g : Int := 0
  cls : XfClass := .fin
  sat : Bool := false
  inexact : Bool := false
  deriving DecidableEq, Repr

/-- The class a 2-bit code names (R71). -/
def XfClass.ofCode : Nat → XfClass
  | 0 => .fin | 1 => .nan | 2 => .posInf | _ => .negInf

/-- The 2-bit code of a class (R71). -/
def XfClass.code : XfClass → Nat
  | .fin => 0 | .nan => 1 | .posInf => 2 | .negInf => 3

/-- Read the 160 bits of an XF value; the second result is the INVALID of a value whose G is outside
-512 to 511 or whose RSVD bits are nonzero, which is treated as class NaN (R71). -/
def Xf.read (x : Nat) : Xf × Bool :=
  let g := signedOf 16 (bitsAt x 128 16)
  let fb := bitsAt x 144 8
  let bad := decide (g < -512) || decide (g > 511) || decide (fb / 16 ≠ 0) || decide (bitsAt x 152 8 ≠ 0)
  let cls := if bad then .nan else XfClass.ofCode (fb % 4)
  ({ v := if cls = .fin then signedOf 128 (bitsAt x 0 128) else 0, g := if cls = .fin then g else 0,
     cls := cls, sat := fb.testBit 2, inexact := fb.testBit 3 }, bad)

/-- The 160 bits of an XF value (R71). -/
def Xf.word (x : Xf) : Nat :=
  (BitVec.ofInt 128 x.v).toNat + (BitVec.ofInt 16 x.g).toNat * 2 ^ 128
    + (x.cls.code + (if x.sat then 4 else 0) + (if x.inexact then 8 else 0)) * 2 ^ 144

/-- An integer P at weight 2^u with its anchor candidate (R54). -/
structure Contrib where
  p : Int
  u : Int
  cand : Int
  deriving DecidableEq, Repr

/-- P aligned to the anchor: exact to the left, toward negative infinity to the right; the second
result is the loss of nonzero bits (R56). -/
def Contrib.align (g : Int) (c : Contrib) : Int × Bool :=
  if c.u ≥ g then (c.p * 2 ^ (c.u - g).toNat, false)
  else
    let d : Int := 2 ^ (g - c.u).toNat
    (c.p / d, decide (c.p % d ≠ 0))

/-- Clamp an exact sum to 128 bits (R57). -/
def clamp128 (x : Int) : Int × Bool :=
  if x ≥ 2 ^ 127 then (2 ^ 127 - 1, true) else if x < -(2 ^ 127) then (-(2 ^ 127), true) else (x, false)

/-- What is known of all contributions of one element (R61). -/
structure AccIn where
  /-- Finite contributions, including those of products with an infinite element. -/
  list : List Contrib := []
  /-- A NaN element, scale or addend. -/
  nan : Bool := false
  /-- A NaN or negative scale, or a malformed XF addend: INVALID with class NaN (R61, R71). -/
  badNan : Bool := false
  /-- An infinite element met a zero. -/
  infZero : Bool := false
  posInf : Bool := false
  negInf : Bool := false
  /-- SAT and INEXACT that an XF addend carries in (R72). -/
  satIn : Bool := false
  inexactIn : Bool := false
  deriving DecidableEq, Repr

/-- Join the knowledge of two sets of contributions. -/
def AccIn.join (a b : AccIn) : AccIn :=
  { list := a.list ++ b.list, nan := a.nan || b.nan, badNan := a.badNan || b.badNan,
    infZero := a.infZero || b.infZero, posInf := a.posInf || b.posInf, negInf := a.negInf || b.negInf,
    satIn := a.satIn || b.satIn, inexactIn := a.inexactIn || b.inexactIn }

/-- The class and the flags of the table "Special-value classes" (R61). -/
def AccIn.cls (a : AccIn) : XfClass × ElemFlags :=
  if a.nan || a.badNan then (.nan, { nanOut := true, invalid := a.badNan })
  else if a.infZero || (a.posInf && a.negInf) then (.nan, { nanOut := true, invalid := true })
  else if a.posInf then (.posInf, {})
  else if a.negInf then (.negInf, {})
  else (.fin, {})

/-- The anchor: the largest candidate, or the fixed one (R55). -/
def AccIn.anchor (a : AccIn) (fixed : Option Int) : Int :=
  match fixed with
  | some g => g
  | none => match a.list with
    | [] => 0
    | c :: t => t.foldl (fun g x => max g x.cand) c.cand

/-- The accumulator's contents and the flags they raise (R53 to R58, R61, R72). A carried-in SAT or
INEXACT bit stays in the value and raises no flag. -/
def AccIn.sum (a : AccIn) (fixed : Option Int) : Xf × ElemFlags :=
  let k := a.cls
  if k.1 = .fin then
    let g := a.anchor fixed
    let al := a.list.map (Contrib.align g)
    let s := clamp128 (al.foldl (fun t x => t + x.1) 0)
    let lost := al.any (·.2)
    ({ v := s.1, g := g, cls := .fin, sat := s.2 || a.satIn, inexact := lost || a.inexactIn },
     { sat := s.2, inexact := lost })
  else ({ cls := k.1, sat := a.satIn, inexact := a.inexactIn }, k.2)

/-- The contribution of an XF value as an addend; a finite value offers its G as candidate whatever
its V (R54, R72; DEDUCED, log 15). -/
def Xf.accIn (x : Xf × Bool) : AccIn :=
  let base : AccIn := { satIn := x.1.sat, inexactIn := x.1.inexact }
  match x.1.cls with
  | .fin => { base with list := [⟨x.1.v, x.1.g, x.1.g⟩] }
  | .nan => { base with nan := true, badNan := x.2 }
  | .posInf => { base with posInf := true }
  | .negInf => { base with negInf := true }

/-- The XF sum of R72, with the flags its own steps raise. -/
def Xf.add (a b : Nat) : Xf × ElemFlags :=
  ((Xf.accIn (Xf.read a)).join (Xf.accIn (Xf.read b))).sum none

end Sys2Proof.Machine
end

