-- ==== Sys2Proof/Machine/Operands.lean ====
section
/-! DEFINITION. The address operand (R110) and the pieces of its requests (R118); the matrix descriptor (R85), the
checks an MMA makes at issue (R86), where the operands of an operation lie (R87), and the contributions its elements
make (R54). -/

namespace Sys2Proof.Machine

/-- The fields of an address operand (R110). -/
structure AddrOp where
  offset : Nat
  device : DeviceNo
  part : BitVec 2
  space : BitVec 2
  rsvd : Nat
  loc : Bool
  deriving DecidableEq, Repr

/-- An operand's fields (R110). -/
def AddrOp.ofWord (w : Word) : AddrOp :=
  { offset := bitsAt w.toNat 0 40, device := w.extractLsb' 40 14, part := w.extractLsb' 54 2,
    space := w.extractLsb' 56 2, rsvd := bitsAt w.toNat 58 5, loc := w.getLsbD 63 }

/-- Whether an operand obeys R110's form. -/
def AddrOp.formOk (a : AddrOp) : Bool :=
  a.space != 3 && a.rsvd == 0
    && (a.space != 1 || (bitsAt a.offset 21 3 == 0 && bitsAt a.offset 34 6 == 0))
    && (a.space != 2 || bitsAt a.offset 29 11 == 0)
    && (!a.loc || (a.device == 0 && a.part == 0))

/-- Logical core or cluster of an operand in SPACE 1 or 2 (R110). -/
def AddrOp.unit (a : AddrOp) : Nat :=
  if a.space = 1 then bitsAt a.offset 24 10 else if a.space = 2 then bitsAt a.offset 24 5 else 0

/-- Byte offset of an operand in its space (R110). -/
def AddrOp.byte (a : AddrOp) : Nat :=
  if a.space = 1 then bitsAt a.offset 0 21 else if a.space = 2 then bitsAt a.offset 0 24 else a.offset

/-- Cut a range into pieces that do not cross a multiple of `size`, as (start, length). -/
def cut (size : Nat) : Nat → Nat → Nat → List (Nat × Nat)
  | 0, _, _ => []
  | n + 1, off, len =>
    if len = 0 then []
    else
      let l := min len (size - off % size)
      (off, l) :: cut size n (off + l) (len - l)

/-- The pieces in which requests reach a space: granules of stacked memory, lines else (R118). -/
def pieces (space : BitVec 2) (off len : Nat) : List (Nat × Nat) :=
  let size := if space = 0 then 256 else 64
  cut size (len / size + 2) off len

/-- A matrix descriptor's fields (R49, R85). -/
structure MmDesc where
  aFmt : Nat
  bFmt : Nat
  cFmt : Nat
  dFmt : Nat
  cEn : Bool
  accMode : Bool
  rnd : Nat
  ovf : Bool
  anchorMode : Bool
  oshift : Int
  anchor : Int
  m : Nat
  n : Nat
  k : Nat
  aAddr : Nat
  bAddr : Nat
  cAddr : Nat
  dAddr : Nat
  saAddr : Nat
  sbAddr : Nat
  aLd : Nat
  bLd : Nat
  cLd : Nat
  dLd : Nat
  tscaleA : Nat
  tscaleB : Nat
  tensorId : BitVec 32
  idxBase : Nat
  idxStride : Nat
  /-- Whether every RSVD bit of the descriptor is zero. -/
  rsvdZero : Bool
  deriving DecidableEq, Repr

/-- The fields of a descriptor's 128 bytes (R85). -/
def MmDesc.ofBits (w : BitVec 1024) : MmDesc :=
  let x := w.toNat
  let at32 (o : Nat) := bitsAt x (8 * o) 32
  { aFmt := bitsAt x 0 4, bFmt := bitsAt x 4 4, cFmt := bitsAt x 8 4, dFmt := bitsAt x 12 4,
    cEn := x.testBit 16, accMode := x.testBit 17, rnd := bitsAt x 18 2, ovf := x.testBit 20,
    anchorMode := x.testBit 21, oshift := signedOf 8 (bitsAt x 24 8),
    anchor := signedOf 16 (bitsAt x 32 16),
    m := bitsAt x 64 16, n := bitsAt x 80 16, k := bitsAt x 96 21,
    aAddr := at32 0x10, bAddr := at32 0x14, cAddr := at32 0x18, dAddr := at32 0x1C,
    saAddr := at32 0x20, sbAddr := at32 0x24,
    aLd := at32 0x28, bLd := at32 0x2C, cLd := at32 0x30, dLd := at32 0x34,
    tscaleA := at32 0x38, tscaleB := at32 0x3C, tensorId := BitVec.ofNat 32 (at32 0x40),
    idxBase := bitsAt x (8 * 0x48) 48, idxStride := bitsAt x (8 * 0x50) 48,
    rsvdZero := bitsAt x 22 2 == 0 && bitsAt x 48 16 == 0 && bitsAt x 117 11 == 0
      && at32 0x44 == 0 && bitsAt x (8 * 0x48 + 48) 16 == 0 && bitsAt x (8 * 0x50 + 48) 16 == 0
      && bitsAt x (8 * 0x58) 320 == 0 }

/-- The kinds of operand pairing (R47). -/
inductive Pairing where
  | fp4 | fp8 | int8
  /-- BF16 with BF16 or FP16 with FP16, normal or exact (R59, R60). -/
  | half
  deriving DecidableEq, Repr

/-- Whether a code is one of the FP6 and FP8 formats (R47). -/
def isFp8Code (c : Nat) : Bool := decide (3 ≤ c) && decide (c ≤ 6)

/-- The pairing of two format codes, if it is permitted (R47). -/
def pairingOf (a b : Nat) : Option Pairing :=
  if a = 7 ∧ b = 7 then some .fp4
  else if isFp8Code a && isFp8Code b then some .fp8
  else if a = 8 ∧ b = 8 then some .int8
  else if (a = 1 ∧ b = 1) ∨ (a = 2 ∧ b = 2) then some .half
  else none

/-- The block size β of a pairing; 0 without block scales (R44, R45). -/
def Pairing.block : Pairing → Nat
  | .fp4 => 16 | .fp8 => 32 | _ => 0

/-- Addend formats a pairing permits (R47). -/
def Pairing.cOk : Pairing → Nat → Bool
  | .int8, c => c == 9 || c == 10
  | .half, c => decide (c ≤ 2)
  | _, c => decide (c ≤ 2) || c == 10

/-- Result formats a pairing permits (R47). -/
def Pairing.dOk : Pairing → Nat → Bool
  | .int8, c => c == 9 || c == 0 || c == 10
  | .half, c => decide (c ≤ 2)
  | _, c => decide (c ≤ 4) || c == 10

/-- The format a code names, FP32 for a reserved one; used after the code was checked. -/
def fmtOf (c : Nat) : NumFmt := (NumFmt.ofCode c).getD .fp32

/-- The bytes of `cnt` packed elements of a format; XF rows follow R71 (R43, R87). -/
def rowBytes (f : NumFmt) (cnt : Nat) : Nat :=
  match f with
  | .xf => 64 * (ceilDiv cnt 3)
  | _ => ceilDiv (cnt * f.bits) 8

/-- A set of rows: base, byte distance, number of rows, bytes of each. -/
structure Region where
  base : Nat
  ld : Nat
  rows : Nat
  bytes : Nat
  deriving DecidableEq, Repr

/-- One past the last byte of a region. -/
def Region.end (r : Region) : Nat := r.base + (r.rows - 1) * r.ld + r.bytes

/-- Whether two regions share a byte; both are walked row by row. -/
def Region.overlaps (a b : Region) : Bool :=
  (List.range a.rows).any fun i => (List.range b.rows).any fun j =>
    decide (a.base + i * a.ld < b.base + j * b.ld + b.bytes)
      && decide (b.base + j * b.ld < a.base + i * a.ld + a.bytes)

/-- Bytes in one core-local space: 2 MiB scratchpad, 16 MiB cluster memory (R79). -/
def spaceEnd (addr : Nat) : Nat := if addr.testBit 24 then 0x2000000 else 0x200000

/-- Whether a region runs past the end of the space its base lies in (R79, R86). A base that is itself outside its
space is an address field that breaks R79, an operand fault (R86). -/
def Region.leaves (r : Region) : Bool :=
  decide (r.base < spaceEnd r.base) && decide (r.end > spaceEnd r.base)

/-- The regions of A, B, the scales, C and D (R87). The scale regions are empty where the pairing has
none, the C region where C_EN is 0. -/
def MmDesc.regA (d : MmDesc) : Region := ⟨d.aAddr, d.aLd, d.m, rowBytes (fmtOf d.aFmt) d.k⟩
/-- The region of B (R87). -/
def MmDesc.regB (d : MmDesc) : Region := ⟨d.bAddr, d.bLd, d.n, rowBytes (fmtOf d.bFmt) d.k⟩
/-- The region of C (R87). -/
def MmDesc.regC (d : MmDesc) : Region := ⟨d.cAddr, d.cLd, d.m, rowBytes (fmtOf d.cFmt) d.n⟩
/-- The region of D (R87). -/
def MmDesc.regD (d : MmDesc) : Region := ⟨d.dAddr, d.dLd, d.m, rowBytes (fmtOf d.dFmt) d.n⟩
/-- The region of A's scales (R87). -/
def MmDesc.regSa (d : MmDesc) (β : Nat) : Region := ⟨d.saAddr, 0, 1, d.m * (d.k / β)⟩
/-- The region of B's scales (R87). -/
def MmDesc.regSb (d : MmDesc) (β : Nat) : Region := ⟨d.sbAddr, 0, 1, d.n * (d.k / β)⟩

/-- The bytes of a row of D that are written, as (offset, length): the elements and, of an XF row, bytes 60 to 63
of every word. The slots of a last XF word that belong to no column are not written (R71, R88; log 81). -/
def MmDesc.dPieces (d : MmDesc) : List (Nat × Nat) :=
  if fmtOf d.dFmt = .xf ∧ d.n % 3 ≠ 0 then
    [(0, 64 * (d.n / 3) + 20 * (d.n % 3)), (64 * (d.n / 3) + 60, 4)]
  else [(0, rowBytes (fmtOf d.dFmt) d.n)]

/-- The bytes that D writes (R86). -/
def MmDesc.dWrites (d : MmDesc) : List Region :=
  d.dPieces.map fun x => ⟨d.dAddr + x.1, d.dLd, d.m, x.2⟩

/-- Whether D writes a byte of a region (R86). -/
def MmDesc.dOverlaps (d : MmDesc) (r : Region) : Bool := d.dWrites.any fun w => w.overlaps r

/-- What an MMA's checks at issue answer (R51, R86). -/
inductive MmCheck where
  | ok | operand | notLicensed | address
  deriving DecidableEq, Repr

/-- Whether the descriptor breaks the bounds that raise the operand fault (R40, R46, R47, R49, R50,
R85, R86). -/
def MmDesc.operandBad (d : MmDesc) : Bool :=
  match pairingOf d.aFmt d.bFmt with
  | none => true
  | some pr =>
    !d.rsvdZero || (d.cEn && !pr.cOk d.cFmt) || !pr.dOk d.dFmt
      || d.rnd == 3 || decide (d.anchor < -512) || decide (d.anchor > 511)
      || (d.accMode && pr != .half)
      || decide (d.k < 1) || decide (d.k > 1048576)
      || (pr.block != 0 && d.k % pr.block != 0)
      || decide (d.m < 1) || decide (d.m > 4096) || decide (d.n < 1) || decide (d.n > 4096)
      || d.aAddr % 64 != 0 || d.bAddr % 64 != 0 || d.cAddr % 64 != 0 || d.dAddr % 64 != 0
      || [d.aAddr, d.bAddr, d.cAddr, d.dAddr, d.saAddr, d.sbAddr].any (fun a => decide (a ≥ spaceEnd a))
      || [d.aLd, d.bLd, d.cLd, d.dLd].any (fun l => decide (l ≥ 2 ^ 24) || l % 64 != 0)
      || d.dOverlaps d.regA || d.dOverlaps d.regB
      || (pr.block != 0 && (d.dOverlaps (d.regSa pr.block) || d.dOverlaps (d.regSb pr.block)))
      || (d.cEn && d.dOverlaps d.regC
          && !(d.cAddr == d.dAddr && d.cLd == d.dLd && (fmtOf d.cFmt).bits == (fmtOf d.dFmt).bits))

/-- Whether an operand range runs past the end of its space (R86). -/
def MmDesc.addressBad (d : MmDesc) : Bool :=
  match pairingOf d.aFmt d.bFmt with
  | none => false
  | some pr =>
    d.regA.leaves || d.regB.leaves || d.regD.leaves || (d.cEn && d.regC.leaves)
      || (pr.block != 0 && ((d.regSa pr.block).leaves || (d.regSb pr.block).leaves))

/-- The base of the first operand whose range leaves its space, in the order A, B, C, D and the scales
(R86; DEDUCED, log 16). -/
def MmDesc.badAddr (d : MmDesc) : Nat :=
  if d.regA.leaves then d.aAddr else if d.regB.leaves then d.bAddr
  else if d.cEn && d.regC.leaves then d.cAddr else if d.regD.leaves then d.dAddr
  else match pairingOf d.aFmt d.bFmt with
    | none => 0
    | some pr => if pr.block != 0 && (d.regSa pr.block).leaves then d.saAddr else d.sbAddr

/-- The checks of R86 and the licence of R51, in the order of the table "Core faults" (R104). The operand
fault of an unlicensed MMA with ACC_MODE 1 carries 0x0105 whatever else its descriptor breaks (R51). -/
def MmDesc.check (d : MmDesc) (exactLicensed : Bool) : MmCheck :=
  if d.accMode && !exactLicensed then .notLicensed
  else if d.operandBad then .operand
  else if d.addressBad then .address
  else .ok

/-- The element width ω (R42). -/
def omega : NumFmt → Nat
  | .e4m3 => 18 | .e5m2 => 32 | .e3m2 => 9 | .e2m3 => 6 | .e2m1 => 4 | .int8 => 8 | _ => 0

/-- The signed scaled integer of a finite element (R42). -/
def scaledInt (f : NumFmt) (x : Nat) : Int :=
  let e := f.expField x
  let n : Int := f.signif x * 2 ^ (e - 1)
  if f.signBit x then -n else n

/-- One product's raw operands: elements of A and B and their block scales' bytes. -/
structure ProdIn where
  a : Nat
  b : Nat
  sa : Nat
  sb : Nat
  deriving DecidableEq, Repr

/-- What an FP6 or FP8 product contributes (R44, R54, R61). -/
def prodFp8 (fa fb : NumFmt) (x : ProdIn) : AccIn :=
  let u := fa.unit + fb.unit + ((x.sa : Int) - 127) + ((x.sb : Int) - 127)
  let w : Int := omega fa + omega fb
  let va := fa.decode x.a
  let vb := fb.decode x.b
  if x.sa = 0xFF ∨ x.sb = 0xFF then { nan := true, badNan := true }
  else if va.isNan || vb.isNan then { nan := true }
  else match va.mul vb with
    | (.nan _, _) => { infZero := true }
    | (.inf s, _) => { posInf := !s, negInf := s }
    | (.fin .., _) => { list := [⟨scaledInt fa x.a * scaledInt fb x.b, u, u + w - 96⟩] }

/-- What an E2M1 product contributes (R45, R54, R61). -/
def prodFp4 (x : ProdIn) : AccIn :=
  if x.sa ≥ 0x7F ∨ x.sb ≥ 0x7F then { nan := true, badNan := true }
  else
    let p := (scaledInt .e2m1 x.a * scaledInt .e4m3 x.sa) * (scaledInt .e2m1 x.b * scaledInt .e4m3 x.sb)
    { list := [⟨p, -20, -72⟩] }

/-- What an INT8 product contributes (R54). -/
def prodInt8 (x : ProdIn) : AccIn := { list := [⟨signedOf 8 x.a * signedOf 8 x.b, 0, -80⟩] }

/-- What a product of the pairing contributes to a 128-bit accumulator. -/
def prodIn (pr : Pairing) (fa fb : NumFmt) (x : ProdIn) : AccIn :=
  match pr with
  | .fp4 => prodFp4 x
  | .fp8 => prodFp8 fa fb x
  | .int8 => prodInt8 x
  | .half => {}

/-- What an addend contributes to a 128-bit accumulator (R54, R61). -/
def addendIn (f : NumFmt) (x : Nat) : AccIn :=
  match f with
  | .xf => Xf.accIn (Xf.read x)
  | .int32 =>
    let v := signedOf 32 x
    if v = 0 then {} else { list := [⟨v, 0, -64⟩] }
  | f =>
    match f.decode x with
    | .nan _ => { nan := true }
    | .inf s => { posInf := !s, negInf := s }
    | .fin s m _ =>
      if m = 0 then {}
      else
        let u : Int := f.unit + ((max (f.expField x) 1 : Nat) : Int) - 1
        { list := [⟨if s then -(m : Int) else m, u, u + (f.mant + 1) - 96⟩] }

end Sys2Proof.Machine
end

