-- ==== Sys2Proof/Machine/Matrix.lean ====
section
/-! DEFINITION. One element of a matrix result: accumulation (R48, R53 to R60), special classes (R61),
and write-back (R62 to R68, R70, R71). -/

namespace Sys2Proof.Machine

/-- What write-back rounds: a class, a saturated sign, or an exact value (R64, R66). -/
structure WbIn where
  val : FpVal
  /-- The accumulator saturated; the sign is that of the value. -/
  sat : Bool := false
  deriving DecidableEq, Repr

/-- Write a value back to a format other than XF (R65, R66, R70). -/
def writeBack (f : NumFmt) (rnd : Rnd) (ovf : Bool) (w : WbIn) : Nat × ElemFlags :=
  match w.val with
  | .nan _ => if f = .int32 then (0x80000000, { invalid := true, nanOut := true })
              else (f.nanCode, { nanOut := true })
  | .inf s =>
    if f = .int32 then (if s then 0x80000000 else 0x7FFFFFFF, { invalid := true })
    else
      let r := f.putInf ovf s
      (r.1, { invalid := r.2.invalid, nanOut := r.2.nanOut, wbOvf := r.2.overflow })
  | .fin s m e =>
    if w.sat then
      (if f = .int32 then (if s then 0x80000000 else 0x7FFFFFFF) else f.withSign s f.maxCode,
       { wbOvf := true })
    else
      let r := if f = .int32 then f.roundInt rnd s m e else f.roundFin rnd ovf s m e
      (r.1, { wbOvf := r.2.overflow })

/-- The value of an accumulator's class (R61, R64). A finite zero is +0 (R62). -/
def Xf.val (x : Xf) : FpVal :=
  match x.cls with
  | .nan => .nan false
  | .posInf => .inf false
  | .negInf => .inf true
  | .fin => (Dy.mk x.v x.g).val false

/-- Whether IEEE 754 arithmetic on two values that are no NaN gave a NaN. -/
def madeNan (x y r : FpVal) : Bool := r.isNan && !x.isNan && !y.isNan

/-- An exact zero written as +0 (R62). -/
def FpVal.posZero : FpVal → FpVal
  | .fin _ 0 e => .fin false 0 e
  | x => x

/-- Whether an E2M1 operation applies its tensor scales: neither C_FMT nor D_FMT is XF (R64). C_FMT is
ignored without an addend (R49). -/
def MmDesc.tscaled (d : MmDesc) (pr : Pairing) : Bool :=
  pr == .fp4 && d.dFmt != 10 && !(d.cEn && d.cFmt == 10)

/-- The value of an E2M1 accumulator after the tensor scales and the addend held back (R54, R61, R64),
with the INVALID of Inf × 0 and of infinities of both signs. -/
def tensorScale (d : MmDesc) (acc : FpVal) (c : FpVal) : FpVal × Bool :=
  let ta := NumFmt.fp32.decode d.tscaleA
  let tb := NumFmt.fp32.decode d.tscaleB
  let t := (ta.mul tb).1
  let x := (acc.mul t).1
  let y := (x.scale d.oshift)
  let z := (y.add c).1
  (z.posZero, madeNan ta tb t || madeNan acc t x || madeNan y c z)

/-- The exact sum of one chunk's products, taken as one step: INVALID when a product of two numbers is
a NaN, or when infinities of both signs meet and no product is a NaN (R59). -/
def chunkSum (ps : List (FpVal × FpVal)) : FpVal × Bool :=
  let qs := ps.map fun p => (p.1.mul p.2).1
  let s := match qs with
    | [] => FpVal.fin false 0 0
    | q :: t => t.foldl (fun s x => (s.add x).1) q
  (s, ps.any (fun p => madeNan p.1 p.2 (p.1.mul p.2).1) || (s.isNan && !qs.any (·.isNan)))

/-- Split into chunks of 8 consecutive entries (R59). -/
def chunks8 {α : Type} : Nat → List α → List (List α)
  | 0, _ => []
  | _, [] => []
  | n + 1, l => l.take 8 :: chunks8 n (l.drop 8)

/-- Round a value to FP32 to nearest even and read it back (R59). -/
def roundFp32 (v : FpVal) : FpVal := NumFmt.fp32.decode (NumFmt.fp32.convert .rne false v).1

/-- Normal mode: the running FP32 value after every chunk, and INVALID (R59). -/
def normalAcc (c : Option FpVal) (ps : List (FpVal × FpVal)) : FpVal × Bool :=
  (chunks8 ps.length ps).foldl (fun s ch =>
    let x := chunkSum ch
    let r := (s.1.add x.1).1
    (roundFp32 r, s.2 || x.2 || madeNan s.1 x.1 r)) (c.getD (.fin false 0 0), false)

/-- Exact mode: what one product or addend value contributes to the 544-bit accumulator (R60, R61). -/
def exactIn (a b : FpVal) : AccIn :=
  if a.isNan || b.isNan then { nan := true }
  else match (a.mul b).1 with
    | .nan _ => { infZero := true }
    | .inf s => { posInf := !s, negInf := s }
    | .fin s m e => { list := [⟨if s then -(m : Int) else m, e, 0⟩] }

/-- The exact sum of contributions that lose nothing (R60). -/
def exactSum (a : AccIn) : FpVal :=
  match a.cls.1 with
  | .nan => .nan false
  | .posInf => .inf false
  | .negInf => .inf true
  | .fin => (a.list.foldl (fun s c => s.add ⟨c.p, c.u⟩) (Dy.mk 0 0)).val false

/-- One element of D: its bits and its flags, from the products' raw operands in K order and the raw
addend (R48, R52). `r` is the random value of stochastic rounding (R67). -/
def mmElem (d : MmDesc) (pr : Pairing) (ps : List ProdIn) (c : Nat) (r : Nat) : Nat × ElemFlags :=
  let fa := fmtOf d.aFmt
  let fb := fmtOf d.bFmt
  let fc := fmtOf d.cFmt
  let fd := fmtOf d.dFmt
  let rnd := (Rnd.ofCode d.rnd r).getD .rne
  if pr = .half then
    let vs := ps.map fun p => (fa.decode p.a, fb.decode p.b)
    if d.accMode then
      let all : AccIn := vs.foldl (fun a p => AccIn.join a (exactIn p.1 p.2)) {}
      let all := if d.cEn then all.join (exactIn (fc.decode c) (.fin false 1 0)) else all
      let w := writeBack fd rnd d.ovf { val := (exactSum all).scale d.oshift }
      (w.1, w.2.or all.cls.2)
    else
      let acc := normalAcc (if d.cEn then some (fc.decode c) else none) vs
      let w := writeBack fd rnd d.ovf { val := acc.1.scale d.oshift }
      (w.1, w.2.or { invalid := acc.2 })
  else
    let held := d.tscaled pr
    let all : AccIn := ps.foldl (fun a p => AccIn.join a (prodIn pr fa fb p)) {}
    let all := if d.cEn && !held then all.join (addendIn fc c) else all
    let cv := if d.cEn && held then fc.decode c else .fin false 0 0
    let ts := held && ((NumFmt.fp32.decode d.tscaleA).isNan || (NumFmt.fp32.decode d.tscaleB).isNan)
    let all := if cv.isNan || ts then { all with nan := true } else all
    let s := all.sum (if d.anchorMode then some d.anchor else none)
    if fd = .xf then (s.1.word, s.2.or { nanOut := s.1.cls == .nan })
    else
      let x := if held && s.1.cls == .fin then tensorScale d s.1.val cv
               else (s.1.val.scale d.oshift, false)
      let w := writeBack fd rnd d.ovf { val := x.1, sat := s.1.sat && s.1.cls == .fin }
      (w.1, (w.2.or s.2).or { invalid := x.2 })

/-- The element index q of D[i][j] (R67). -/
def MmDesc.elemIndex (d : MmDesc) (i j : Nat) : Word :=
  BitVec.ofNat 64 ((d.idxBase + i * d.idxStride + j) % 2 ^ 48)

/-- Tile edge T (R88). -/
def MmDesc.tile (d : MmDesc) : Nat := if d.accMode then 16 else 32

/-- The engine that computes D[i][j] (R88). -/
def MmDesc.engine (d : MmDesc) (i j : Nat) : Nat :=
  ((i / d.tile) * ceilDiv d.n d.tile + j / d.tile) % 4

/-- Bit position of element `j` within a row of a format (R43, R87). -/
def elemBit (f : NumFmt) (j : Nat) : Nat :=
  match f with
  | .xf => 8 * (64 * (j / 3) + 20 * (j % 3))
  | f => f.bits * j

end Sys2Proof.Machine
end

