-- ==== Sys2Proof/Config.lean ====
section
/-! DEFINITION. What the spec leaves open: free values, constants without a body, and the constants
an implementation fixes. -/

namespace Sys2Proof.Config

/-- The bytes of poisoned data, which are unspecified (R105; log 8): a fresh value for each counter. -/
opaque freeBlock : Nat → Block

/-- A random or otherwise unstated number, fresh for each counter (log 8). -/
opaque freeNat : Nat → Nat

/-- SHA-512 of a byte string (FIPS 180-4; the spec names the hash and gives no procedure; log 9). -/
opaque sha512 : List Byte → BitVec 512

/-- The full-issue engine energy of a 4 µs window, in picojoules before K, of a device-wide cluster at a
step: the part's own calibration (R336, R350; log 8). -/
opaque engineFull : Nat → Nat → Nat

/-- What each of a cluster's 48 activity counters counts: 0 its matrix engines, 1 other work of the compute account, 2 clocking
(R336, R338; the spec lists no counter; log 8). -/
opaque counterKind : Nat → Fin 3

/-- The weight of a device-wide cluster's counter, in picojoules per event: factory calibration (R336; log 8). -/
opaque weight : Nat → Nat → Nat

/-- A device-wide cluster's leakage in a 4 µs window, in picojoules, at a requested voltage in mV and a control reading in
0.25 °C: fused coefficients (R336; log 8). -/
opaque leakage : Nat → Nat → Int → Nat

/-- A stack's energy per granule and its refresh in a window, a port's energy per cell and its SerDes in a window, in
picojoules: fused (R336; log 8). -/
opaque granuleEnergy : Nat → Nat
opaque refreshEnergy : Nat → Nat
opaque cellEnergy : Nat → Nat
opaque serdesEnergy : Nat → Nat

/-- A window's energy of the mesh, the CP complex, the PCIe controllers and the bedrock domain, 0 to 3, in picojoules (R336;
log 8). -/
opaque fixedEnergy : Nat → Nat

/-- A measurement whose layout the spec does not give, from its index and contents (R446; log 8). -/
opaque measure : Nat → List Nat → BitVec 512

/-- The device certificate chain's bytes, hashed by GET_DIGESTS (R446, R447; log 8). -/
opaque chain : BitVec 256 → List Byte

end Sys2Proof.Config
end

