-- ==== Sys2Proof/Machine/LineCode.lean ====
section
/-! DEFINITION. The protection of a 64-byte SRAM line: 16 words of 39 bits under a SEC-DED code, interleaved, and the
poison bit stored three times (R136 to R138). -/

namespace Sys2Proof.Machine

/-- The word to which data bit `b` of a line belongs (R137). -/
def lineWord (b : Nat) : Nat := b % 16

/-- How many stored bits of word `w` differ: stored bit 16 × j + w holds bit j of word w (R137). -/
def wordFlips (e : LineErrs) (w : Nat) : Nat :=
  (List.range 39).countP fun j => e.any fun x => x.val == 16 * j + w

/-- What a check of an SRAM line finds (R137, R138). -/
inductive LineOutcome where
  | none | corrected | uncorrected
  /-- A word with more than two wrong bits, and none with two: the code answers nothing that the spec states
  (log 7). -/
  | unstated
  deriving DecidableEq, Repr

/-- The outcome of a line's 16 words: one wrong bit in a word is corrected, two are detected (R137, R138). -/
def lineOutcome (e : LineErrs) : LineOutcome :=
  let ns := (List.range 16).map (wordFlips e)
  if ns.any (· == 2) then .uncorrected
  else if ns.any (fun n => decide (2 < n)) then .unstated
  else if ns.any (· == 1) then .corrected
  else .none

/-- Whether the vote over the three copies of the poison bit, stored bits 624 to 626, reads the wrong value (R137). -/
def voteFlips (e : LineErrs) : Bool :=
  decide (2 ≤ (List.range 3).countP fun i => e.any fun x => x.val == 624 + i)

/-- A line in which the data bits of the words with more than two wrong bits take those of `free`. -/
def scrambled (e : LineErrs) (line free : BitVec 512) : BitVec 512 :=
  (List.range 512).foldl (fun x i => if 2 < wordFlips e (lineWord i) then setBit x i (free.getLsbD i) else x) line

end Sys2Proof.Machine
end

