-- ==== Sys2Proof/Machine/Regs.lean ====
section
/-! DEFINITION. The registers of the package, one structure each, with the reset values the spec
gives and the word a reader sees (R7, R9). -/

namespace Sys2Proof.Machine

/-- CORE_ARITH_STATUS, 32 bits (R73, 02_arithmetic.md). -/
structure CoreArithStatus where
  /-- bits 3:0, w1c: a long accumulator of engine n saturated (R57, R72) -/
  laSat : BitVec 4 := 0
  /-- bits 7:4, w1c: engine n dropped nonzero bits in alignment (R56, R72) -/
  laInexact : BitVec 4 := 0
  /-- bits 11:8, w1c: engine n generated a NaN or an invalid integer result (R61, R63, R66, R71) -/
  invalid : BitVec 4 := 0
  /-- bits 15:12, w1c: engine n wrote a result of class NaN: a NaN encoding, an XF class NaN, or the INT32 value 0x8000_0000 written for a class NaN (R66) -/
  nanOut : BitVec 4 := 0
  /-- bits 19:16, w1c: engine n overflowed or clamped at write-back (R66, R70) -/
  wbOvf : BitVec 4 := 0
  deriving DecidableEq, Repr

/-- CORE_ARITH_STATUS as the word a reader of the register sees (R73); RSVD bits read zero (R9). -/
def CoreArithStatus.word (r : CoreArithStatus) : BitVec 32 :=
  packFields [(0, 4, r.laSat.toNat), (4, 4, r.laInexact.toNat), (8, 4, r.invalid.toNat), (12, 4, r.nanOut.toNat), (16, 4, r.wbOvf.toNat)]

/-- CORE_ARITH_CTRL, 32 bits (R74, 02_arithmetic.md). -/
structure CoreArithCtrl where
  /-- bit 0, rw: trap when any LA_SAT bit is set -/
  satTrap : Bool := false
  /-- bit 1, rw: trap when any INVALID bit is set -/
  invalidTrap : Bool := false
  /-- bit 2, rw: trap when any LA_INEXACT bit is set -/
  inexactTrap : Bool := false
  /-- bit 3, rw: trap when any WB_OVF bit is set -/
  wbOvfTrap : Bool := false
  deriving DecidableEq, Repr

/-- CORE_ARITH_CTRL as the word a reader of the register sees (R74); RSVD bits read zero (R9). -/
def CoreArithCtrl.word (r : CoreArithCtrl) : BitVec 32 :=
  packFields [(0, 1, r.satTrap.toNat), (1, 1, r.invalidTrap.toNat), (2, 1, r.inexactTrap.toNat), (3, 1, r.wbOvfTrap.toNat)]

/-- CORE_ARITH_CTRL from the word written to it; bits written to RSVD are ignored (R9). -/
def CoreArithCtrl.ofWord (w : BitVec 32) : CoreArithCtrl :=
  { satTrap := w.getLsbD 0, invalidTrap := w.getLsbD 1, inexactTrap := w.getLsbD 2, wbOvfTrap := w.getLsbD 3 }

/-- CORE_ID, 32 bits (R101, 03_core.md). -/
structure CoreId where
  /-- bits 4:0, ro: logical index within the cluster, 0–31 [reset: set at partition reset] -/
  coreIndex : BitVec 5 := 0
  /-- bits 9:5, ro: logical cluster number within the partition (R15) [reset: set at partition reset] -/
  logicalCluster : BitVec 5 := 0
  /-- bits 11:10, ro: partition number p [reset: set at partition reset] -/
  partition : BitVec 2 := 0
  /-- bits 13:12, ro: field f [reset: set at partition reset] -/
  field : BitVec 2 := 0
  /-- bits 16:14, ro: logical index k within the field [reset: set at partition reset] -/
  fieldCluster : BitVec 3 := 0
  deriving DecidableEq, Repr

/-- CORE_ID as the word a reader of the register sees (R101); RSVD bits read zero (R9). -/
def CoreId.word (r : CoreId) : BitVec 32 :=
  packFields [(0, 5, r.coreIndex.toNat), (5, 5, r.logicalCluster.toNat), (10, 2, r.partition.toNat), (12, 2, r.field.toNat), (14, 3, r.fieldCluster.toNat)]

/-- CORE_CTRL, 32 bits (R101, 03_core.md). -/
structure CoreCtrl where
  /-- bit 0, rw: 1: the first consumption of poison raises the poison fault (R106) -/
  poisonTrap : Bool := false
  /-- bit 1, rw: 1: the sequencer issues nothing further; outstanding work completes, and STATE reads halted. Writing 0 while STATE is halted resumes issue at CORE_PC, and STATE again shows what the core is doing. Writing 0 never resumes a faulted core -/
  halt : Bool := false
  deriving DecidableEq, Repr

/-- CORE_CTRL as the word a reader of the register sees (R101); RSVD bits read zero (R9). -/
def CoreCtrl.word (r : CoreCtrl) : BitVec 32 :=
  packFields [(0, 1, r.poisonTrap.toNat), (1, 1, r.halt.toNat)]

/-- CORE_CTRL from the word written to it; bits written to RSVD are ignored (R9). -/
def CoreCtrl.ofWord (w : BitVec 32) : CoreCtrl :=
  { poisonTrap := w.getLsbD 0, halt := w.getLsbD 1 }

/-- CORE_STATUS, 32 bits (R101, 03_core.md). -/
structure CoreStatus where
  /-- bits 2:0, ro: 0 idle, 1 running, 2 waiting at barrier, 3 waiting on queue, token or WAITM, 4 halted, 5 faulted, 6–7 not used -/
  state : BitVec 3 := 0
  /-- bits 6:3, ro: outstanding matrix operations, 0–8 -/
  mmOutstanding : BitVec 4 := 0
  /-- bit 7, ro: vector instructions in flight -/
  vecBusy : Bool := false
  /-- bit 8, ro: an issued operation waits for its ramp wave -/
  waveHeld : Bool := false
  deriving DecidableEq, Repr

/-- CORE_STATUS as the word a reader of the register sees (R101); RSVD bits read zero (R9). -/
def CoreStatus.word (r : CoreStatus) : BitVec 32 :=
  packFields [(0, 3, r.state.toNat), (3, 4, r.mmOutstanding.toNat), (7, 1, r.vecBusy.toNat), (8, 1, r.waveHeld.toNat)]

/-- CORE_FAULT, 32 bits (R101, 03_core.md). -/
structure CoreFault where
  /-- bits 7:0, ro: cause from the table Core faults; 0x00 none -/
  cause : BitVec 8 := 0
  /-- bit 8, ro: a further fault was detected before the context stopped -/
  multi : Bool := false
  /-- bits 31:16, ro: status code reported for the cause -/
  code : BitVec 16 := 0
  deriving DecidableEq, Repr

/-- CORE_FAULT as the word a reader of the register sees (R101); RSVD bits read zero (R9). -/
def CoreFault.word (r : CoreFault) : BitVec 32 :=
  packFields [(0, 8, r.cause.toNat), (8, 1, r.multi.toNat), (16, 16, r.code.toNat)]

/-- CORE_VEC_STATUS, 32 bits (R101, 03_core.md). -/
structure CoreVecStatus where
  /-- bit 0, w1c: IEEE invalid, or NaN converted to an integer -/
  vInvalid : Bool := false
  /-- bit 1, w1c: VRCP or VLOG2 of zero -/
  vDivzero : Bool := false
  /-- bit 2, w1c: overflow or integer saturation -/
  vOverflow : Bool := false
  /-- bit 3, w1c: tiny result, with tininess detected after rounding (R89), that is also inexact -/
  vUnderflow : Bool := false
  /-- bit 4, w1c: rounded result -/
  vInexact : Bool := false
  deriving DecidableEq, Repr

/-- CORE_VEC_STATUS as the word a reader of the register sees (R101); RSVD bits read zero (R9). -/
def CoreVecStatus.word (r : CoreVecStatus) : BitVec 32 :=
  packFields [(0, 1, r.vInvalid.toNat), (1, 1, r.vDivzero.toNat), (2, 1, r.vOverflow.toNat), (3, 1, r.vUnderflow.toNat), (4, 1, r.vInexact.toNat)]

/-- CORE_ISSUE, 32 bits (R101, 03_core.md). -/
structure CoreIssue where
  /-- bits 6:0, ro: issue level L of the cluster (R98) -/
  issueLevel : BitVec 7 := 64
  /-- bit 7, ro: the cluster is ramping -/
  ramping : Bool := false
  /-- bit 8, ro: this core's engines are enabled -/
  enabled : Bool := false
  /-- bits 11:9, ro: this core's ramp wave [reset: CORE_INDEX div 4] -/
  wave : BitVec 3 := 0
  deriving DecidableEq, Repr

/-- CORE_ISSUE as the word a reader of the register sees (R101); RSVD bits read zero (R9). -/
def CoreIssue.word (r : CoreIssue) : BitVec 32 :=
  packFields [(0, 7, r.issueLevel.toNat), (7, 1, r.ramping.toNat), (8, 1, r.enabled.toNat), (9, 3, r.wave.toNat)]

/-- CORE_POISON, 32 bits (R101, 03_core.md). -/
structure CorePoison where
  /-- bit 0, w1c: the context read poisoned data -/
  consumed : Bool := false
  /-- bit 1, w1c: the context wrote, pushed or sent poisoned data -/
  emitted : Bool := false
  /-- bits 3:2, ro: path of the first consumption: 0 matrix, 1 vector, 2 queue, 3 scalar -/
  firstPath : BitVec 2 := 0
  /-- bits 31:16, ro: consumptions, saturating at 0xFFFF -/
  count : BitVec 16 := 0
  deriving DecidableEq, Repr

/-- CORE_POISON as the word a reader of the register sees (R101); RSVD bits read zero (R9). -/
def CorePoison.word (r : CorePoison) : BitVec 32 :=
  packFields [(0, 1, r.consumed.toNat), (1, 1, r.emitted.toNat), (2, 2, r.firstPath.toNat), (16, 16, r.count.toNat)]

/-- MEM_CONFIG, 32 bits (R142, 04_memory.md). -/
structure MemConfig where
  /-- bit 0, ro: interleave mode in force: 0 FIELD, 1 ALL -/
  mode : Bool := false
  /-- bit 1, rw: mode applied at the next layout change (R113) -/
  modeNext : Bool := false
  /-- bits 7:4, rw: patrol period in hours (R133); 0 acts as 1 -/
  patrolHours : BitVec 4 := 12
  deriving DecidableEq, Repr

/-- MEM_CONFIG as the word a reader of the register sees (R142); RSVD bits read zero (R9). -/
def MemConfig.word (r : MemConfig) : BitVec 32 :=
  packFields [(0, 1, r.mode.toNat), (1, 1, r.modeNext.toNat), (4, 4, r.patrolHours.toNat)]

/-- MEM_CONFIG from the word written to it; bits written to RSVD are ignored (R9). -/
def MemConfig.ofWord (w : BitVec 32) : MemConfig :=
  { mode := w.getLsbD 0, modeNext := w.getLsbD 1, patrolHours := w.extractLsb' 4 4 }

/-- MC_STATUS, 32 bits (R142, 04_memory.md). -/
structure McStatus where
  /-- bits 1:0, ro: 0 off, 1 training, 2 ready, 3 self-refresh -/
  state : BitVec 2 := 0
  /-- bit 2, ro: the full fill (R135) or contents kept in self-refresh are valid -/
  filled : Bool := false
  /-- bit 3, ro: refresh doubled (R141) -/
  refresh2x : Bool := false
  /-- bit 4, ro: bandwidth throttled by the power controller -/
  bwLimited : Bool := false
  /-- bit 5, ro: a sweep (R132) is running on this stack -/
  sweeping : Bool := false
  /-- bit 6, ro: a page copy (R127) is in progress -/
  remapBusy : Bool := false
  /-- bit 7, ro: the stack was marked failed at S4 (R386); STATE then reads 0 (off) and FILLED reads 0 until the next start -/
  failed : Bool := false
  deriving DecidableEq, Repr

/-- MC_STATUS as the word a reader of the register sees (R142); RSVD bits read zero (R9). -/
def McStatus.word (r : McStatus) : BitVec 32 :=
  packFields [(0, 2, r.state.toNat), (2, 1, r.filled.toNat), (3, 1, r.refresh2x.toNat), (4, 1, r.bwLimited.toNat), (5, 1, r.sweeping.toNat), (6, 1, r.remapBusy.toNat), (7, 1, r.failed.toNat)]

/-- MC_TEMP, 32 bits (R142, 04_memory.md). -/
structure McTemp where
  /-- bits 9:0, ro: stack temperature in units of 0.25 °C, 0 to 255.75 °C -/
  temp : BitVec 10 := 0
  /-- bit 10, ro: TEMP holds a reading taken at most 100 µs ago -/
  valid : Bool := false
  /-- bit 11, ro: refresh doubled for temperature -/
  hot : Bool := false
  deriving DecidableEq, Repr

/-- MC_TEMP as the word a reader of the register sees (R142); RSVD bits read zero (R9). -/
def McTemp.word (r : McTemp) : BitVec 32 :=
  packFields [(0, 10, r.temp.toNat), (10, 1, r.valid.toNat), (11, 1, r.hot.toNat)]

/-- MC_ERR_COUNT, 64 bits (R142, 04_memory.md). -/
structure McErrCount where
  /-- bits 31:0, ro: corrections of 1 or 2 symbols, saturating -/
  ce : BitVec 32 := 0
  /-- bits 47:32, ro: corrections of 3 symbols, saturating -/
  ce3 : BitVec 16 := 0
  /-- bits 63:48, ro: uncorrectable codewords, saturating -/
  ue : BitVec 16 := 0
  deriving DecidableEq, Repr

/-- MC_ERR_COUNT as the word a reader of the register sees (R142); RSVD bits read zero (R9). -/
def McErrCount.word (r : McErrCount) : BitVec 64 :=
  packFields [(0, 32, r.ce.toNat), (32, 16, r.ce3.toNat), (48, 16, r.ue.toNat)]

/-- MC_ERR_LOG, 64 bits (R142, 04_memory.md). -/
structure McErrLog where
  /-- bits 35:0, ro: stack offset of the granule of the latest event -/
  stackOffset : BitVec 36 := 0
  /-- bits 39:36, ro: 0 none, 1 correction, 2 three-symbol correction, 3 uncorrectable, 4 owner mismatch, 5 page retired, 6 retirement deferred (R129), 7–15 not used -/
  kind : BitVec 4 := 0
  /-- bits 41:40, ro: OWNER from the granule's metadata, or the tag for kind 3 -/
  owner : BitVec 2 := 0
  /-- bits 43:42, ro: symbols corrected -/
  nsym : BitVec 2 := 0
  deriving DecidableEq, Repr

/-- MC_ERR_LOG as the word a reader of the register sees (R142); RSVD bits read zero (R9). -/
def McErrLog.word (r : McErrLog) : BitVec 64 :=
  packFields [(0, 36, r.stackOffset.toNat), (36, 4, r.kind.toNat), (40, 2, r.owner.toNat), (42, 2, r.nsym.toNat)]

/-- MC_SPARE, 64 bits (R142, 04_memory.md). -/
structure McSpare where
  /-- bits 17:0, ro: pages in the stack's pool [reset: set at S4] -/
  poolTotal : BitVec 18 := 0
  /-- bits 35:18, ro: pool pages holding retired pages [reset: set at S4] -/
  poolUsed : BitVec 18 := 0
  /-- bit 36, ro: a retirement found the pool empty -/
  exhausted : Bool := false
  /-- bits 52:37, ro: rows repaired by the stack at the latest start [reset: set at S4] -/
  rowsRepaired : BitVec 16 := 0
  deriving DecidableEq, Repr

/-- MC_SPARE as the word a reader of the register sees (R142); RSVD bits read zero (R9). -/
def McSpare.word (r : McSpare) : BitVec 64 :=
  packFields [(0, 18, r.poolTotal.toNat), (18, 18, r.poolUsed.toNat), (36, 1, r.exhausted.toNat), (37, 16, r.rowsRepaired.toNat)]

/-- MC_PATROL, 32 bits (R142, 04_memory.md). -/
structure McPatrol where
  /-- bits 6:0, ro: position of the current patrol in 1/128 of the data space -/
  progress : BitVec 7 := 0
  /-- bits 31:7, ro: patrols completed since chip reset -/
  passes : BitVec 25 := 0
  deriving DecidableEq, Repr

/-- MC_PATROL as the word a reader of the register sees (R142); RSVD bits read zero (R9). -/
def McPatrol.word (r : McPatrol) : BitVec 32 :=
  packFields [(0, 7, r.progress.toNat), (7, 25, r.passes.toNat)]

/-- MEM_CAPACITY, 64 bits (R143, 04_memory.md). -/
structure MemCapacity where
  /-- bits 9:0, ro: C_p in GiB (R108) [reset: set at partition reset] -/
  capacityGib : BitVec 10 := 0
  /-- bits 19:10, ro: r_p, kept in the field defect log [reset: set at partition reset] -/
  retiredGib : BitVec 10 := 0
  /-- bits 29:20, ro: GiB to retire at the next partition reset (R129) [reset: kept] -/
  pendingGib : BitVec 10 := 0
  /-- bit 30, ro: interleave mode in force [reset: set at partition reset] -/
  mode : Bool := false
  deriving DecidableEq, Repr

/-- MEM_CAPACITY as the word a reader of the register sees (R143); RSVD bits read zero (R9). -/
def MemCapacity.word (r : MemCapacity) : BitVec 64 :=
  packFields [(0, 10, r.capacityGib.toNat), (10, 10, r.retiredGib.toNat), (20, 10, r.pendingGib.toNat), (30, 1, r.mode.toNat)]

/-- MEM_GEN, 32 bits (R143, 04_memory.md). -/
structure MemGen where
  /-- bits 3:0, ro: current generation (R130) [reset: held in bedrock SRAM] -/
  gen : BitVec 4 := 0
  /-- bits 7:4, ro: current dump generation [reset: held in bedrock SRAM] -/
  dumpGen : BitVec 4 := 0
  /-- bit 8, ro: a sweep is running [reset: held in bedrock SRAM] -/
  sweeping : Bool := false
  /-- bits 15:9, ro: fraction of the partition's pages already swept, in 1/128, whatever the order of the sweep (R132) [reset: held in bedrock SRAM] -/
  progress : BitVec 7 := 0
  /-- bits 31:16, ro: bit v set: value v is in LIVE [reset: held in bedrock SRAM] -/
  live : BitVec 16 := 0
  deriving DecidableEq, Repr

/-- MEM_GEN as the word a reader of the register sees (R143); RSVD bits read zero (R9). -/
def MemGen.word (r : MemGen) : BitVec 32 :=
  packFields [(0, 4, r.gen.toNat), (4, 4, r.dumpGen.toNat), (8, 1, r.sweeping.toNat), (9, 7, r.progress.toNat), (16, 16, r.live.toNat)]

/-- MEM_POISON_LOG, 64 bits (R143, 04_memory.md). -/
structure MemPoisonLog where
  /-- bits 39:0, rs: device-local address of the latest granule poisoned in the partition -/
  address : BitVec 40 := 0
  /-- bits 43:40, rs: its stack -/
  stack : BitVec 4 := 0
  /-- bits 45:44, rs: its POISON_SRC -/
  src : BitVec 2 := 0
  /-- bit 46, rs: the fields above hold an event -/
  valid : Bool := false
  /-- bits 63:48, rs: granules poisoned, saturating -/
  count : BitVec 16 := 0
  deriving DecidableEq, Repr

/-- MEM_POISON_LOG as the word a reader of the register sees (R143); RSVD bits read zero (R9). -/
def MemPoisonLog.word (r : MemPoisonLog) : BitVec 64 :=
  packFields [(0, 40, r.address.toNat), (40, 4, r.stack.toNat), (44, 2, r.src.toNat), (46, 1, r.valid.toNat), (48, 16, r.count.toNat)]

/-- MEM_SRAM_COUNT, 64 bits (R143, 04_memory.md). -/
structure MemSramCount where
  /-- bits 31:0, rs: SRAM corrections in the partition domain, saturating -/
  ce : BitVec 32 := 0
  /-- bits 47:32, rs: SRAM uncorrectable lines, saturating -/
  ue : BitVec 16 := 0
  deriving DecidableEq, Repr

/-- MEM_SRAM_COUNT as the word a reader of the register sees (R143); RSVD bits read zero (R9). -/
def MemSramCount.word (r : MemSramCount) : BitVec 64 :=
  packFields [(0, 32, r.ce.toNat), (32, 16, r.ue.toNat)]

/-- MEM_WINDOWn, 64 bits (R143, 04_memory.md). -/
structure MemWindow where
  /-- bits 27:0, rw: first 4 KiB unit of OFFSET covered -/
  base : BitVec 28 := 0
  /-- bits 55:28, rw: last 4 KiB unit of OFFSET covered, inclusive -/
  limit : BitVec 28 := 0
  /-- bits 57:56, rw: space of R110 that the window covers -/
  space : BitVec 2 := 0
  /-- bit 58, rw: admits reads -/
  read : Bool := false
  /-- bit 59, rw: admits writes and RADD -/
  write : Bool := false
  deriving DecidableEq, Repr

/-- MEM_WINDOW as the word a reader of the register sees (R143); RSVD bits read zero (R9). -/
def MemWindow.word (r : MemWindow) : BitVec 64 :=
  packFields [(0, 28, r.base.toNat), (28, 28, r.limit.toNat), (56, 2, r.space.toNat), (58, 1, r.read.toNat), (59, 1, r.write.toNat)]

/-- MEM_WINDOW from the word written to it; bits written to RSVD are ignored (R9). -/
def MemWindow.ofWord (w : BitVec 64) : MemWindow :=
  { base := w.extractLsb' 0 28, limit := w.extractLsb' 28 28, space := w.extractLsb' 56 2, read := w.getLsbD 58, write := w.getLsbD 59 }

/-- QIN_CFG, 64 bits (R163, 05_queues_dma.md). -/
structure QinCfg where
  /-- bit 0, rw: inbound side enabled; writing 1 sends a grant (R150) -/
  enable : Bool := false
  /-- bit 1, rw: host mode (R160) -/
  host : Bool := false
  /-- bits 5:2, rw: host-queue slot -/
  hostSlot : BitVec 4 := 0
  /-- bit 6, ro: the last write of ENABLE 1 was refused: the scree breaks R146, or HOST is 1 with SCREE_PAGES 0; ENABLE stays 0 -/
  cfgError : Bool := false
  /-- bits 39:12, rw: device-local address bits [39:12] of the scree -/
  screeBase : BitVec 28 := 0
  /-- bits 54:40, rw: scree size in pages, 0–16,384 -/
  screePages : BitVec 15 := 0
  deriving DecidableEq, Repr

/-- QIN_CFG as the word a reader of the register sees (R163); RSVD bits read zero (R9). -/
def QinCfg.word (r : QinCfg) : BitVec 64 :=
  packFields [(0, 1, r.enable.toNat), (1, 1, r.host.toNat), (2, 4, r.hostSlot.toNat), (6, 1, r.cfgError.toNat), (12, 28, r.screeBase.toNat), (40, 15, r.screePages.toNat)]

/-- QIN_CFG from the word written to it; bits written to RSVD are ignored (R9). -/
def QinCfg.ofWord (w : BitVec 64) : QinCfg :=
  { enable := w.getLsbD 0, host := w.getLsbD 1, hostSlot := w.extractLsb' 2 4, cfgError := w.getLsbD 6, screeBase := w.extractLsb' 12 28, screePages := w.extractLsb' 40 15 }

/-- QIN_SRC and QOUT_DST, 64 bits (R163, 05_queues_dma.md). -/
structure QinBind where
  /-- bits 13:0, rw: device number of the producer (QIN_SRC) or the receiver (QOUT_DST) -/
  device : BitVec 14 := 0
  /-- bits 15:14, rw: its partition -/
  part : BitVec 2 := 0
  /-- bits 25:16, rw: its logical core number -/
  core : BitVec 10 := 0
  /-- bits 28:26, rw: its queue number -/
  queue : BitVec 3 := 0
  /-- bit 29, rw: QOUT_DST: binding in force; writing 1 clears QOUT_STATE and sends a grant request. QIN_SRC: RSVD -/
  valid : Bool := false
  /-- bits 39:32, rw: binding generation -/
  bindGen : BitVec 8 := 0
  /-- bits 63:48, ro: QOUT_DST: reason of the break. QIN_SRC: RSVD -/
  breakReason : BitVec 16 := 0
  deriving DecidableEq, Repr

/-- QIN_BIND as the word a reader of the register sees (R163); RSVD bits read zero (R9). -/
def QinBind.word (r : QinBind) : BitVec 64 :=
  packFields [(0, 14, r.device.toNat), (14, 2, r.part.toNat), (16, 10, r.core.toNat), (26, 3, r.queue.toNat), (29, 1, r.valid.toNat), (32, 8, r.bindGen.toNat), (48, 16, r.breakReason.toNat)]

/-- QIN_BIND from the word written to it; bits written to RSVD are ignored (R9). -/
def QinBind.ofWord (w : BitVec 64) : QinBind :=
  { device := w.extractLsb' 0 14, part := w.extractLsb' 14 2, core := w.extractLsb' 16 10, queue := w.extractLsb' 26 3, valid := w.getLsbD 29, bindGen := w.extractLsb' 32 8, breakReason := w.extractLsb' 48 16 }

/-- QIN_STATE, 64 bits (R163, 05_queues_dma.md). -/
structure QinState where
  /-- bits 19:0, ro: slot of the next word to deliver -/
  head : BitVec 20 := 0
  /-- bits 39:20, ro: W -/
  capacity : BitVec 20 := 0
  /-- bits 55:40, ro: reason of the current flush -/
  reason : BitVec 16 := 0
  /-- bit 56, ro: flush marker at the head -/
  flushed : Bool := false
  /-- bit 57, ro: words are held in the scree -/
  spilled : Bool := false
  /-- bits 63:58, ro: words discarded under R145, saturating -/
  discarded : BitVec 6 := 0
  deriving DecidableEq, Repr

/-- QIN_STATE as the word a reader of the register sees (R163); RSVD bits read zero (R9). -/
def QinState.word (r : QinState) : BitVec 64 :=
  packFields [(0, 20, r.head.toNat), (20, 20, r.capacity.toNat), (40, 16, r.reason.toNat), (56, 1, r.flushed.toNat), (57, 1, r.spilled.toNat), (58, 6, r.discarded.toNat)]

/-- QOUT_STATE, 64 bits (R163, 05_queues_dma.md). -/
structure QoutState where
  /-- bits 19:0, ro: slot of the next word sent -/
  nextSlot : BitVec 20 := 0
  /-- bits 39:20, ro: words that may be sent -/
  credits : BitVec 20 := 0
  /-- bits 59:40, ro: W from the grant -/
  capacity : BitVec 20 := 0
  /-- bit 60, ro: a break notice was received -/
  broken : Bool := false
  /-- bit 61, ro: a grant was accepted -/
  granted : Bool := false
  deriving DecidableEq, Repr

/-- QOUT_STATE as the word a reader of the register sees (R163); RSVD bits read zero (R9). -/
def QoutState.word (r : QoutState) : BitVec 64 :=
  packFields [(0, 20, r.nextSlot.toNat), (20, 20, r.credits.toNat), (40, 20, r.capacity.toNat), (60, 1, r.broken.toNat), (61, 1, r.granted.toNat)]

/-- HQ_CFG, 32 bits (R164, 05_queues_dma.md). -/
structure HqCfg where
  /-- bit 0, ro: a host-mode inbound side uses this slot -/
  active : Bool := false
  /-- bits 3:1, ro: its queue number -/
  queue : BitVec 3 := 0
  /-- bits 13:4, ro: its logical core number -/
  core : BitVec 10 := 0
  /-- bit 14, ro: flushed (R161) -/
  flushed : Bool := false
  /-- bits 31:16, ro: flush reason -/
  reason : BitVec 16 := 0
  deriving DecidableEq, Repr

/-- HQ_CFG as the word a reader of the register sees (R164); RSVD bits read zero (R9). -/
def HqCfg.word (r : HqCfg) : BitVec 32 :=
  packFields [(0, 1, r.active.toNat), (1, 3, r.queue.toNat), (4, 10, r.core.toNat), (14, 1, r.flushed.toNat), (16, 16, r.reason.toNat)]

/-- HQ_BASE, 64 bits (R164, 05_queues_dma.md). -/
structure HqBase where
  /-- bits 39:12, ro: as in QIN_CFG -/
  screeBase : BitVec 28 := 0
  /-- bits 54:40, ro: as in QIN_CFG -/
  screePages : BitVec 15 := 0
  /-- bits 62:55, ro: MSI-X vector -/
  vector : BitVec 8 := 0
  deriving DecidableEq, Repr

/-- HQ_BASE as the word a reader of the register sees (R164); RSVD bits read zero (R9). -/
def HqBase.word (r : HqBase) : BitVec 64 :=
  packFields [(12, 28, r.screeBase.toNat), (40, 15, r.screePages.toNat), (55, 8, r.vector.toNat)]

/-- HQ_HEAD, 32 bits (R164, 05_queues_dma.md). -/
structure HqHead where
  /-- bits 19:0, rw: slot after the last consumed; a write returns credits and arms the vector -/
  head : BitVec 20 := 0
  deriving DecidableEq, Repr

/-- HQ_HEAD as the word a reader of the register sees (R164); RSVD bits read zero (R9). -/
def HqHead.word (r : HqHead) : BitVec 32 :=
  packFields [(0, 20, r.head.toNat)]

/-- HQ_TAIL, 32 bits (R164, 05_queues_dma.md). -/
structure HqTail where
  /-- bits 19:0, ro: slot after the last present word contiguous from HEAD -/
  tail : BitVec 20 := 0
  /-- bit 20, ro: the vector is armed -/
  armed : Bool := false
  /-- bit 21, ro: the ring holds W unconsumed words; TAIL then equals HEAD (R161) -/
  full : Bool := false
  deriving DecidableEq, Repr

/-- HQ_TAIL as the word a reader of the register sees (R164); RSVD bits read zero (R9). -/
def HqTail.word (r : HqTail) : BitVec 32 :=
  packFields [(0, 20, r.tail.toNat), (20, 1, r.armed.toNat), (21, 1, r.full.toNat)]

/-- DMA_ENG_STATUS, 32 bits (R177, 05_queues_dma.md). -/
structure DmaEngStatus where
  /-- bit 0, ro: the engine is stopped by a bus error; clears when no channel is stopped or failed -/
  stopped : Bool := false
  /-- bit 1, ro: a channel is failed; clears together with STOPPED, once no channel is stopped or failed. FAILED_CH, OFFSET_OVERFLOW, CODE and DMA_ENG_ERR keep the latest bus error until the next one or a partition reset -/
  failed : Bool := false
  /-- bits 5:2, ro: the failed channel -/
  failedCh : BitVec 4 := 0
  /-- bit 6, ro: the failing request's offset sum left the 40-bit range (R169) -/
  offsetOverflow : Bool := false
  /-- bits 31:16, ro: code of the bus error -/
  code : BitVec 16 := 0
  deriving DecidableEq, Repr

/-- DMA_ENG_STATUS as the word a reader of the register sees (R177); RSVD bits read zero (R9). -/
def DmaEngStatus.word (r : DmaEngStatus) : BitVec 32 :=
  packFields [(0, 1, r.stopped.toNat), (1, 1, r.failed.toNat), (2, 4, r.failedCh.toNat), (6, 1, r.offsetOverflow.toNat), (16, 16, r.code.toNat)]

/-- DMA_CH_STATUS, 64 bits (R177, 05_queues_dma.md). -/
structure DmaChStatus where
  /-- bits 2:0, ro: 0 idle, 1 active, 2 stopped, 3 failed, 4 cancelling, 5–7 not used -/
  state : BitVec 3 := 0
  /-- bits 6:3, ro: descriptors held, 0–8 -/
  pending : BitVec 4 := 0
  /-- bit 7, ro: the current or last descriptor moved poisoned data -/
  poisonSeen : Bool := false
  /-- bits 17:8, ro: logical core number of the current descriptor's poster; 0x3FF for firmware -/
  poster : BitVec 10 := 0
  /-- bits 49:18, ro: USER_TAG of the current descriptor -/
  userTag : BitVec 32 := 0
  deriving DecidableEq, Repr

/-- DMA_CH_STATUS as the word a reader of the register sees (R177); RSVD bits read zero (R9). -/
def DmaChStatus.word (r : DmaChStatus) : BitVec 64 :=
  packFields [(0, 3, r.state.toNat), (3, 4, r.pending.toNat), (7, 1, r.poisonSeen.toNat), (8, 10, r.poster.toNat), (18, 32, r.userTag.toNat)]

/-- DMA_CH_PROGRESS, 64 bits (R177, 05_queues_dma.md). -/
structure DmaChProgress where
  /-- bits 31:0, ro: R175 -/
  doneUnits : BitVec 32 := 0
  /-- bit 32, ro: a descriptor is in progress -/
  valid : Bool := false
  deriving DecidableEq, Repr

/-- DMA_CH_PROGRESS as the word a reader of the register sees (R177); RSVD bits read zero (R9). -/
def DmaChProgress.word (r : DmaChProgress) : BitVec 64 :=
  packFields [(0, 32, r.doneUnits.toNat), (32, 1, r.valid.toNat)]

/-- DMA_CH_COUNT, 64 bits (R177, 05_queues_dma.md). -/
structure DmaChCount where
  /-- bits 31:0, ro: completed descriptors, modulo 2^32 -/
  count : BitVec 32 := 0
  /-- bits 63:32, rw: interrupt value (R172); 0 disables -/
  irqAt : BitVec 32 := 0
  deriving DecidableEq, Repr

/-- DMA_CH_COUNT as the word a reader of the register sees (R177); RSVD bits read zero (R9). -/
def DmaChCount.word (r : DmaChCount) : BitVec 64 :=
  packFields [(0, 32, r.count.toNat), (32, 32, r.irqAt.toNat)]

/-- DMA_CH_CTRL, 32 bits (R177, 05_queues_dma.md). -/
structure DmaChCtrl where
  /-- bit 2, w1c: interrupt raised and not yet cleared; firmware clears it as R172 lays down -/
  irqPending : Bool := false
  deriving DecidableEq, Repr

/-- DMA_CH_CTRL as the word a reader of the register sees (R177); RSVD bits read zero (R9). -/
def DmaChCtrl.word (r : DmaChCtrl) : BitVec 32 :=
  packFields [(2, 1, r.irqPending.toNat)]

/-- MB_STATUS, 32 bits (R190, 06_host_interface.md). -/
structure MbStatus where
  /-- bits 2:0, rw: 0 FREE, 1 POSTED, 2 ACCEPTED, 3 DONE, 4–7 not used -/
  state : BitVec 3 := 0
  /-- bits 4:3, ro: 0 normal, 1 CP_SWITCHING, 2 firmware activation pause, 3 partition resetting -/
  service : BitVec 2 := 0
  /-- bits 12:5, ro: MSI-X vector of the command, from acceptance -/
  vector : BitVec 8 := 0
  /-- bit 13, ro: an interrupt is raised at DONE -/
  notify : Bool := false
  deriving DecidableEq, Repr

/-- MB_STATUS as the word a reader of the register sees (R190); RSVD bits read zero (R9). -/
def MbStatus.word (r : MbStatus) : BitVec 32 :=
  packFields [(0, 3, r.state.toNat), (3, 2, r.service.toNat), (5, 8, r.vector.toNat), (13, 1, r.notify.toNat)]

/-- EVT_CTRL, 64 bits (R199, 06_host_interface.md). -/
structure EvtCtrl where
  /-- bits 31:0, rw: entries consumed -/
  head : BitVec 32 := 0
  /-- bits 39:32, rw: MSI-X vector -/
  vector : BitVec 8 := 0
  /-- bit 40, rw: raise the vector by R199 -/
  enable : Bool := false
  deriving DecidableEq, Repr

/-- EVT_CTRL as the word a reader of the register sees (R199); RSVD bits read zero (R9). -/
def EvtCtrl.word (r : EvtCtrl) : BitVec 64 :=
  packFields [(0, 32, r.head.toNat), (32, 8, r.vector.toNat), (40, 1, r.enable.toNat)]

/-- EVT_CTRL from the word written to it; bits written to RSVD are ignored (R9). -/
def EvtCtrl.ofWord (w : BitVec 64) : EvtCtrl :=
  { head := w.extractLsb' 0 32, vector := w.extractLsb' 32 8, enable := w.getLsbD 40 }

/-- EVT_TAIL, 64 bits (R199, 06_host_interface.md). -/
structure EvtTail where
  /-- bits 31:0, ro: entries written -/
  tail : BitVec 32 := 0
  /-- bits 47:32, ro: events dropped, saturating -/
  lost : BitVec 16 := 0
  deriving DecidableEq, Repr

/-- EVT_TAIL as the word a reader of the register sees (R199); RSVD bits read zero (R9). -/
def EvtTail.word (r : EvtTail) : BitVec 64 :=
  packFields [(0, 32, r.tail.toNat), (32, 16, r.lost.toNat)]

/-- CHIP_HOST, 32 bits (R202, 06_host_interface.md). -/
structure ChipHost where
  /-- bits 3:0, ro: bit p: owner of partition p, 0 A or 1 B [reset: held in bedrock SRAM] -/
  partOwner : BitVec 4 := 0
  /-- bit 4, ro: 0 A, 1 B [reset: held in bedrock SRAM] -/
  chipOwner : Bool := false
  /-- bit 5, ro: port A link up -/
  portAUp : Bool := false
  /-- bit 6, ro: port B link up -/
  portBUp : Bool := false
  /-- bits 9:7, ro: layout code [reset: held in bedrock SRAM] -/
  layout : BitVec 3 := 0
  deriving DecidableEq, Repr

/-- CHIP_HOST as the word a reader of the register sees (R202); RSVD bits read zero (R9). -/
def ChipHost.word (r : ChipHost) : BitVec 32 :=
  packFields [(0, 4, r.partOwner.toNat), (4, 1, r.chipOwner.toNat), (5, 1, r.portAUp.toNat), (6, 1, r.portBUp.toNat), (7, 3, r.layout.toNat)]

/-- PORT_JOURNAL, 64 bits (R202, 06_host_interface.md). -/
structure PortJournal where
  /-- bits 31:0, ro: random value drawn at bedrock power-up [reset: held in bedrock SRAM] -/
  bootId : BitVec 32 := 0
  /-- bits 47:32, ro: chip resets since bedrock power-up, wrapping [reset: held in bedrock SRAM] -/
  chipResets : BitVec 16 := 0
  deriving DecidableEq, Repr

/-- PORT_JOURNAL as the word a reader of the register sees (R202); RSVD bits read zero (R9). -/
def PortJournal.word (r : PortJournal) : BitVec 64 :=
  packFields [(0, 32, r.bootId.toNat), (32, 16, r.chipResets.toNat)]

/-- PORT_VIOLATION, 64 bits (R202, 06_host_interface.md). -/
structure PortViolation where
  /-- bits 15:0, ro: accesses refused under R182, saturating -/
  count : BitVec 16 := 0
  /-- bit 16, ro: latest refused access: 0 BAR0, 1 BAR2 -/
  bar : Bool := false
  /-- bit 17, ro: latest refused access was a write -/
  write : Bool := false
  /-- bits 57:18, ro: its offset within the BAR -/
  offset : BitVec 40 := 0
  deriving DecidableEq, Repr

/-- PORT_VIOLATION as the word a reader of the register sees (R202); RSVD bits read zero (R9). -/
def PortViolation.word (r : PortViolation) : BitVec 64 :=
  packFields [(0, 16, r.count.toNat), (16, 1, r.bar.toNat), (17, 1, r.write.toNat), (18, 40, r.offset.toNat)]

/-- PART_STATUS, 32 bits (R203, 06_host_interface.md). -/
structure PartStatus where
  /-- bits 2:0, ro: 0 held in reset, 1 resetting, 2 ready, 3 running, 4 power-gated, 5–7 not used -/
  state : BitVec 3 := 0
  /-- bits 4:3, ro: as MB_STATUS.SERVICE -/
  service : BitVec 2 := 0
  /-- bit 5, ro: 0 A, 1 B [reset: per ownership] -/
  owner : Bool := false
  /-- bits 11:6, ro: 0–32 [reset: set at partition reset] -/
  logicalClusters : BitVec 6 := 0
  /-- bit 12, ro: a dump awaits DUMP_RELEASE [reset: held in bedrock SRAM] -/
  dumpHeld : Bool := false
  deriving DecidableEq, Repr

/-- PART_STATUS as the word a reader of the register sees (R203); RSVD bits read zero (R9). -/
def PartStatus.word (r : PartStatus) : BitVec 32 :=
  packFields [(0, 3, r.state.toNat), (3, 2, r.service.toNat), (5, 1, r.owner.toNat), (6, 6, r.logicalClusters.toNat), (12, 1, r.dumpHeld.toNat)]

/-- STRM_STATUS, 64 bits (R244, 07_streams_strata.md). -/
structure StrmStatus where
  /-- bits 47:0, ro: SEQ of the running stream; 0 when none runs -/
  seq : BitVec 48 := 0
  /-- bits 50:48, ro: 0 idle, 1 validating, 2 running, 3 switching, 4 ending, 5–7 not used -/
  state : BitVec 3 := 0
  /-- bits 56:51, ro: current stratum -/
  stratum : BitVec 6 := 0
  deriving DecidableEq, Repr

/-- STRM_STATUS as the word a reader of the register sees (R244); RSVD bits read zero (R9). -/
def StrmStatus.word (r : StrmStatus) : BitVec 64 :=
  packFields [(0, 48, r.seq.toNat), (48, 3, r.state.toNat), (51, 6, r.stratum.toNat)]

/-- STRM_POS, 64 bits (R244, 07_streams_strata.md). -/
structure StrmPos where
  /-- bits 15:0, ro: highest phase whose body has started -/
  phase : BitVec 16 := 0
  /-- bits 31:16, ro: lowest record index not yet started, counted from 0 -/
  nextOp : BitVec 16 := 0
  /-- bits 39:32, ro: current job index -/
  job : BitVec 8 := 0
  /-- bit 40, ro: a signal met an unarmed token (R222) -/
  stray : Bool := false
  deriving DecidableEq, Repr

/-- STRM_POS as the word a reader of the register sees (R244); RSVD bits read zero (R9). -/
def StrmPos.word (r : StrmPos) : BitVec 64 :=
  packFields [(0, 16, r.phase.toNat), (16, 16, r.nextOp.toNat), (32, 8, r.job.toNat), (40, 1, r.stray.toNat)]

/-- STRM_PREPARED, 32 bits (R244, 07_streams_strata.md). -/
structure StrmPrepared where
  /-- bits 5:0, ro: prepared stratum -/
  stratum : BitVec 6 := 0
  /-- bit 6, ro: a preparation is held (R234) -/
  valid : Bool := false
  deriving DecidableEq, Repr

/-- STRM_PREPARED as the word a reader of the register sees (R244); RSVD bits read zero (R9). -/
def StrmPrepared.word (r : StrmPrepared) : BitVec 32 :=
  packFields [(0, 6, r.stratum.toNat), (6, 1, r.valid.toNat)]

/-- PHASE_TOKENt, 64 bits (R244, 07_streams_strata.md). -/
structure PhaseToken where
  /-- bits 15:0, ro: signals since arming, saturating -/
  count : BitVec 16 := 0
  /-- bits 31:16, ro: target from the declaration -/
  target : BitVec 16 := 0
  /-- bit 32, ro: armed for the open phase -/
  armed : Bool := false
  /-- bit 33, ro: ARMED and COUNT ≥ TARGET -/
  complete : Bool := false
  /-- bit 34, ro: a signal found COUNT at 0xFFFF -/
  overflow : Bool := false
  deriving DecidableEq, Repr

/-- PHASE_TOKEN as the word a reader of the register sees (R244); RSVD bits read zero (R9). -/
def PhaseToken.word (r : PhaseToken) : BitVec 64 :=
  packFields [(0, 16, r.count.toNat), (16, 16, r.target.toNat), (32, 1, r.armed.toNat), (33, 1, r.complete.toNat), (34, 1, r.overflow.toNat)]

/-- FP_CTRL, 32 bits (R273, 08_links.md). -/
structure FpCtrl where
  /-- bit 0, ro: port enabled; set at S6 for licensed P0–P17 -/
  enable : Bool := false
  /-- bits 7:3, ro: P18 and P19: role port served (R271), 0x1F none; RSVD elsewhere -/
  standIn : BitVec 5 := 31
  deriving DecidableEq, Repr

/-- FP_CTRL as the word a reader of the register sees (R273); RSVD bits read zero (R9). -/
def FpCtrl.word (r : FpCtrl) : BitVec 32 :=
  packFields [(0, 1, r.enable.toNat), (3, 5, r.standIn.toNat)]

/-- FP_STATUS, 64 bits (R273, 08_links.md). -/
structure FpStatus where
  /-- bits 2:0, ro: 0 DISABLED, 1 TRAINING, 2 IDENT_WAIT, 3 UP, 4 DOWN, 5 HELD, 6–7 not used -/
  state : BitVec 3 := 0
  /-- bits 4:3, ro: 0 none, 2 or 3 Lemloku version -/
  version : BitVec 2 := 0
  /-- bits 7:5, ro: transmit physical lane retired; 7 none -/
  txRetired : BitVec 3 := 7
  /-- bits 10:8, ro: receive physical lane retired; 7 none -/
  rxRetired : BitVec 3 := 7
  /-- bit 11, ro: a transmit spare remains -/
  txSpare : Bool := false
  /-- bit 12, ro: a receive spare remains -/
  rxSpare : Bool := false
  /-- bit 13, ro: a handover from this port is under way -/
  handover : Bool := false
  /-- bit 14, ro: this port carries cells handed from its twin -/
  carrying : Bool := false
  /-- bit 15, ro: the last training started from the training record -/
  savedStart : Bool := false
  /-- bits 20:16, ro: role port served [reset: port number] -/
  role : BitVec 5 := 0
  /-- bits 36:21, ro: code of the latest DOWN, HELD or refused stand-in -/
  downCode : BitVec 16 := 0
  /-- bits 52:37, ro: failures since power-up, saturating -/
  downs : BitVec 16 := 0
  deriving DecidableEq, Repr

/-- FP_STATUS as the word a reader of the register sees (R273); RSVD bits read zero (R9). -/
def FpStatus.word (r : FpStatus) : BitVec 64 :=
  packFields [(0, 3, r.state.toNat), (3, 2, r.version.toNat), (5, 3, r.txRetired.toNat), (8, 3, r.rxRetired.toNat), (11, 1, r.txSpare.toNat), (12, 1, r.rxSpare.toNat), (13, 1, r.handover.toNat), (14, 1, r.carrying.toNat), (15, 1, r.savedStart.toNat), (16, 5, r.role.toNat), (21, 16, r.downCode.toNat), (37, 16, r.downs.toNat)]

/-- FP_PEER, 64 bits (R273, 08_links.md). -/
structure FpPeer where
  /-- bits 13:0, ro: peer's DEVICE, or FAR_DEVICE of a switch tray -/
  device : BitVec 14 := 0
  /-- bits 18:14, ro: peer's ROLE, or FAR_ROLE -/
  role : BitVec 5 := 0
  /-- bits 20:19, ro: peer's KIND -/
  kind : BitVec 2 := 0
  /-- bit 21, ro: an IDENT has been received -/
  valid : Bool := false
  /-- bits 63:32, ro: peer's SERIAL_TAG -/
  serialTag : BitVec 32 := 0
  deriving DecidableEq, Repr

/-- FP_PEER as the word a reader of the register sees (R273); RSVD bits read zero (R9). -/
def FpPeer.word (r : FpPeer) : BitVec 64 :=
  packFields [(0, 14, r.device.toNat), (14, 5, r.role.toNat), (19, 2, r.kind.toNat), (21, 1, r.valid.toNat), (32, 32, r.serialTag.toNat)]

/-- FP_EXPECT, 64 bits (R273, 08_links.md). -/
structure FpExpect where
  /-- bits 13:0, ro: expected far-end device; computed for P0–P7 -/
  device : BitVec 14 := 0
  /-- bits 18:14, ro: expected far-end role port -/
  role : BitVec 5 := 0
  /-- bit 19, ro: the fields above are set -/
  valid : Bool := false
  deriving DecidableEq, Repr

/-- FP_EXPECT as the word a reader of the register sees (R273); RSVD bits read zero (R9). -/
def FpExpect.word (r : FpExpect) : BitVec 64 :=
  packFields [(0, 14, r.device.toNat), (14, 5, r.role.toNat), (19, 1, r.valid.toNat)]

/-- FP_ERR, 64 bits (R273, 08_links.md). -/
structure FpErr where
  /-- bits 31:0, ro: codewords corrected, saturating -/
  fecCorr : BitVec 32 := 0
  /-- bits 47:32, ro: codewords uncorrectable, saturating -/
  fecUncorr : BitVec 16 := 0
  /-- bits 63:48, ro: non-link cells discarded for CRC, saturating -/
  crcFail : BitVec 16 := 0
  deriving DecidableEq, Repr

/-- FP_ERR as the word a reader of the register sees (R273); RSVD bits read zero (R9). -/
def FpErr.word (r : FpErr) : BitVec 64 :=
  packFields [(0, 32, r.fecCorr.toNat), (32, 16, r.fecUncorr.toNat), (48, 16, r.crcFail.toNat)]

/-- FP_RETRY, 64 bits (R273, 08_links.md). -/
structure FpRetry where
  /-- bits 11:0, ro: LSEQ of the next cell sent -/
  nextLseq : BitVec 12 := 0
  /-- bits 23:12, ro: oldest unacknowledged LSEQ -/
  oldest : BitVec 12 := 0
  /-- bits 34:24, ro: cells in the retry buffer, 0–1,024 -/
  occupancy : BitVec 11 := 0
  /-- bits 50:35, ro: replays, saturating -/
  replays : BitVec 16 := 0
  deriving DecidableEq, Repr

/-- FP_RETRY as the word a reader of the register sees (R273); RSVD bits read zero (R9). -/
def FpRetry.word (r : FpRetry) : BitVec 64 :=
  packFields [(0, 12, r.nextLseq.toNat), (12, 12, r.oldest.toNat), (24, 11, r.occupancy.toNat), (35, 16, r.replays.toNat)]

/-- FP_LANEl, 64 bits (R273, 08_links.md). -/
structure FpLane where
  /-- bits 31:0, ro: corrected symbols received on the lane, saturating -/
  corrSymbols : BitVec 32 := 0
  /-- bits 47:32, ro: highest count in any 1 ms, saturating -/
  peakPerMs : BitVec 16 := 0
  /-- bit 48, ro: receive clock recovered -/
  rxLock : Bool := false
  /-- bits 50:49, ro: 0 active, 1 spare, 2 retired -/
  rxUse : BitVec 2 := 0
  /-- bits 52:51, ro: 0 active, 1 spare, 2 retired -/
  txUse : BitVec 2 := 0
  deriving DecidableEq, Repr

/-- FP_LANE as the word a reader of the register sees (R273); RSVD bits read zero (R9). -/
def FpLane.word (r : FpLane) : BitVec 64 :=
  packFields [(0, 32, r.corrSymbols.toNat), (32, 16, r.peakPerMs.toNat), (48, 1, r.rxLock.toNat), (49, 2, r.rxUse.toNat), (51, 2, r.txUse.toNat)]

/-- FAB_LINK_CONFIG, 32 bits (R273, 08_links.md). -/
structure FabLinkConfig where
  /-- bits 15:0, ro: corrected symbols per lane in 1 ms that make a lane failing (R263) -/
  laneLimit : BitVec 16 := 0x1000
  /-- bits 19:16, ro: replays without progress that fail a port (R265); 0 acts as 1 -/
  replayLimit : BitVec 4 := 8
  /-- bits 27:20, ro: µs to wait for a handover report (R267); 0 acts as 1 -/
  reportWait : BitVec 8 := 100
  deriving DecidableEq, Repr

/-- FAB_LINK_CONFIG as the word a reader of the register sees (R273); RSVD bits read zero (R9). -/
def FabLinkConfig.word (r : FabLinkConfig) : BitVec 32 :=
  packFields [(0, 16, r.laneLimit.toNat), (16, 4, r.replayLimit.toNat), (20, 8, r.reportWait.toNat)]

/-- FAB_LINK_CONFIG from the word written to it; bits written to RSVD are ignored (R9). -/
def FabLinkConfig.ofWord (w : BitVec 32) : FabLinkConfig :=
  { laneLimit := w.extractLsb' 0 16, replayLimit := w.extractLsb' 16 4, reportWait := w.extractLsb' 20 8 }

/-- FAB_EPOCH, 32 bits (R309, 09_routing.md). -/
structure FabEpoch where
  /-- bit 0, ro: epoch given to entering packets -/
  current : Bool := false
  /-- bit 1, ro: both banks in use (R285) -/
  settling : Bool := false
  /-- bits 31:16, ro: flips since reset, wrapping -/
  flips : BitVec 16 := 0
  deriving DecidableEq, Repr

/-- FAB_EPOCH as the word a reader of the register sees (R309); RSVD bits read zero (R9). -/
def FabEpoch.word (r : FabEpoch) : BitVec 32 :=
  packFields [(0, 1, r.current.toNat), (1, 1, r.settling.toNat), (16, 16, r.flips.toNat)]

/-- FAB_RING, 32 bits (R309, 09_routing.md). -/
structure FabRing where
  /-- bits 3:0, rw: bank 0; bits for +x, −x, +y, −y -/
  outClosed0 : BitVec 4 := 0
  /-- bits 7:4, rw: bank 0 -/
  inClosed0 : BitVec 4 := 0
  /-- bits 11:8, rw: bank 1 -/
  outClosed1 : BitVec 4 := 0
  /-- bits 15:12, rw: bank 1 -/
  inClosed1 : BitVec 4 := 0
  deriving DecidableEq, Repr

/-- FAB_RING as the word a reader of the register sees (R309); RSVD bits read zero (R9). -/
def FabRing.word (r : FabRing) : BitVec 32 :=
  packFields [(0, 4, r.outClosed0.toNat), (4, 4, r.inClosed0.toNat), (8, 4, r.outClosed1.toNat), (12, 4, r.inClosed1.toNat)]

/-- FAB_RING from the word written to it; bits written to RSVD are ignored (R9). -/
def FabRing.ofWord (w : BitVec 32) : FabRing :=
  { outClosed0 := w.extractLsb' 0 4, inClosed0 := w.extractLsb' 4 4, outClosed1 := w.extractLsb' 8 4, inClosed1 := w.extractLsb' 12 4 }

/-- FAB_ARB, 32 bits (R309, 09_routing.md). -/
structure FabArb where
  /-- bits 7:0, rw: REQ weight (R278); 0 acts as 1 -/
  wReq : BitVec 8 := 30
  /-- bits 15:8, rw: RSP weight -/
  wRsp : BitVec 8 := 30
  /-- bits 23:16, rw: COL weight -/
  wCol : BitVec 8 := 35
  /-- bits 31:24, rw: CTL weight -/
  wCtl : BitVec 8 := 5
  deriving DecidableEq, Repr

/-- FAB_ARB as the word a reader of the register sees (R309); RSVD bits read zero (R9). -/
def FabArb.word (r : FabArb) : BitVec 32 :=
  packFields [(0, 8, r.wReq.toNat), (8, 8, r.wRsp.toNat), (16, 8, r.wCol.toNat), (24, 8, r.wCtl.toNat)]

/-- FAB_ARB from the word written to it; bits written to RSVD are ignored (R9). -/
def FabArb.ofWord (w : BitVec 32) : FabArb :=
  { wReq := w.extractLsb' 0 8, wRsp := w.extractLsb' 8 8, wCol := w.extractLsb' 16 8, wCtl := w.extractLsb' 24 8 }

/-- FAB_CONG_CFG, 32 bits (R309, 09_routing.md). -/
structure FabCongCfg where
  /-- bits 2:0, rw: marking level (R300); 0 acts as 1 -/
  markEighths : BitVec 3 := 4
  /-- bit 3, rw: rate limiters act on echoes (R302) -/
  enable : Bool := true
  /-- bits 11:4, rw: least gap between decreases, in units of 0.25 µs; 0 acts as 1 -/
  decGap : BitVec 8 := 4
  /-- bits 19:12, rw: increase period in µs; 0 acts as 1 -/
  incPeriod : BitVec 8 := 8
  deriving DecidableEq, Repr

/-- FAB_CONG_CFG as the word a reader of the register sees (R309); RSVD bits read zero (R9). -/
def FabCongCfg.word (r : FabCongCfg) : BitVec 32 :=
  packFields [(0, 3, r.markEighths.toNat), (3, 1, r.enable.toNat), (4, 8, r.decGap.toNat), (12, 8, r.incPeriod.toNat)]

/-- FAB_CONG_CFG from the word written to it; bits written to RSVD are ignored (R9). -/
def FabCongCfg.ofWord (w : BitVec 32) : FabCongCfg :=
  { markEighths := w.extractLsb' 0 3, enable := w.getLsbD 3, decGap := w.extractLsb' 4 8, incPeriod := w.extractLsb' 12 8 }

/-- FAB_CONG_STAT, 64 bits (R309, 09_routing.md). -/
structure FabCongStat where
  /-- bits 8:0, ro: limiters in use, 0–256 -/
  limited : BitVec 9 := 0
  /-- bits 63:32, ro: echoes received, saturating -/
  echoes : BitVec 32 := 0
  deriving DecidableEq, Repr

/-- FAB_CONG_STAT as the word a reader of the register sees (R309); RSVD bits read zero (R9). -/
def FabCongStat.word (r : FabCongStat) : BitVec 64 :=
  packFields [(0, 9, r.limited.toNat), (32, 32, r.echoes.toNat)]

/-- FAB_DROP, 64 bits (R309, 09_routing.md). -/
structure FabDrop where
  /-- bits 15:0, ro: undeliverable packets (R293), saturating -/
  unreachable : BitVec 16 := 0
  /-- bits 31:16, ro: detours taken (R296), saturating -/
  detoured : BitVec 16 := 0
  /-- bits 47:32, ro: packets discarded under R276, saturating -/
  badHeader : BitVec 16 := 0
  /-- bits 63:48, ro: BARRIER arrivals lost to a full CP receive ring (R290) or to a partition's 256 kept arrivals (R308), saturating -/
  ctlOverflow : BitVec 16 := 0
  deriving DecidableEq, Repr

/-- FAB_DROP as the word a reader of the register sees (R309); RSVD bits read zero (R9). -/
def FabDrop.word (r : FabDrop) : BitVec 64 :=
  packFields [(0, 16, r.unreachable.toNat), (16, 16, r.detoured.toNat), (32, 16, r.badHeader.toNat), (48, 16, r.ctlOverflow.toNat)]

/-- FAB_PROBE_CTRL, 32 bits (R309, 09_routing.md). -/
structure FabProbeCtrl where
  /-- bits 13:0, rw: probe target -/
  device : BitVec 14 := 0
  /-- bit 15, ro: the result is valid -/
  done : Bool := false
  /-- bit 16, ro: no echo within 1 ms -/
  failed : Bool := false
  deriving DecidableEq, Repr

/-- FAB_PROBE_CTRL as the word a reader of the register sees (R309); RSVD bits read zero (R9). -/
def FabProbeCtrl.word (r : FabProbeCtrl) : BitVec 32 :=
  packFields [(0, 14, r.device.toNat), (15, 1, r.done.toNat), (16, 1, r.failed.toNat)]

/-- FAB_PROBE_RESULT, 64 bits (R309, 09_routing.md). -/
structure FabProbeResult where
  /-- bits 31:0, ro: target's rack time minus own, in ns, two's complement -/
  offset : BitVec 32 := 0
  /-- bits 63:32, ro: fabric round trip in ns -/
  roundTrip : BitVec 32 := 0
  deriving DecidableEq, Repr

/-- FAB_PROBE_RESULT as the word a reader of the register sees (R309); RSVD bits read zero (R9). -/
def FabProbeResult.word (r : FabProbeResult) : BitVec 64 :=
  packFields [(0, 32, r.offset.toNat), (32, 32, r.roundTrip.toNat)]

/-- FAB_EPOCH_CNTn, 64 bits (R309, 09_routing.md). -/
structure FabEpochCnt where
  /-- bits 31:0, ro: packets of epoch e, class c, entering here (R286), wrapping -/
  inj : BitVec 32 := 0
  /-- bits 63:32, ro: packets of epoch e, class c, ending here, wrapping -/
  out : BitVec 32 := 0
  deriving DecidableEq, Repr

/-- FAB_EPOCH_CNT as the word a reader of the register sees (R309); RSVD bits read zero (R9). -/
def FabEpochCnt.word (r : FabEpochCnt) : BitVec 64 :=
  packFields [(0, 32, r.inj.toNat), (32, 32, r.out.toNat)]

/-- COL_STATUS, 64 bits (R332, 10_collectives.md). -/
structure ColStatus where
  /-- bits 10:0, ro: groups resolved in the current job, 0–1,024 -/
  groups : BitVec 11 := 0
  /-- bits 25:16, ro: COLLECTIVE_START operations with lanes running -/
  running : BitVec 10 := 0
  deriving DecidableEq, Repr

/-- COL_STATUS as the word a reader of the register sees (R332); RSVD bits read zero (R9). -/
def ColStatus.word (r : ColStatus) : BitVec 64 :=
  packFields [(0, 11, r.groups.toNat), (16, 10, r.running.toNat)]

/-- COL_FAIL, 64 bits (R332, 10_collectives.md). -/
structure ColFail where
  /-- bits 15:0, ro: group of the latest failed collective -/
  group : BitVec 16 := 0
  /-- bits 47:16, ro: its sequence number -/
  seq : BitVec 32 := 0
  /-- bits 63:48, ro: code with which it failed here (R327, R328) -/
  code : BitVec 16 := 0
  deriving DecidableEq, Repr

/-- COL_FAIL as the word a reader of the register sees (R332); RSVD bits read zero (R9). -/
def ColFail.word (r : ColFail) : BitVec 64 :=
  packFields [(0, 16, r.group.toNat), (16, 32, r.seq.toNat), (48, 16, r.code.toNat)]

/-- COL_MCASTn, 64 bits (R332, 10_collectives.md). -/
structure ColMcast where
  /-- bits 9:0, ro: logical core whose PUTs the slot turns into MWRITE (R326) -/
  core : BitVec 10 := 0
  /-- bit 10, ro: the slot acts -/
  armed : Bool := false
  /-- bit 11, ro: 0 along x (row), 1 along y (column) -/
  axis : Bool := false
  /-- bits 19:12, ro: members to receive a copy, by coordinate -/
  mask : BitVec 8 := 0
  /-- bits 33:20, ro: last member along the + direction; DEST of every MWRITE -/
  device : BitVec 14 := 0
  /-- bits 35:34, ro: partition number of every member -/
  part : BitVec 2 := 0
  deriving DecidableEq, Repr

/-- COL_MCAST as the word a reader of the register sees (R332); RSVD bits read zero (R9). -/
def ColMcast.word (r : ColMcast) : BitVec 64 :=
  packFields [(0, 10, r.core.toNat), (10, 1, r.armed.toNat), (11, 1, r.axis.toNat), (12, 8, r.mask.toNat), (20, 14, r.device.toNat), (34, 2, r.part.toNat)]

/-- PWR_STATUS, 64 bits (R367, 11_power_thermal.md). -/
structure PwrStatus where
  /-- bits 3:0, ro: step in force [reset: set at S3] -/
  step : BitVec 4 := 0
  /-- bits 7:4, ro: slow-loop target (R345) [reset: set at S3] -/
  target : BitVec 4 := 0
  /-- bits 14:8, ro: package issue level (R340) -/
  lPower : BitVec 7 := 64
  /-- bit 15, ro: a step is in progress -/
  vfBusy : Bool := false
  /-- bit 16, ro: fixed mode in force and not yielding -/
  fixed : Bool := false
  /-- bit 17, ro: R349 -/
  fixedHeld : Bool := false
  /-- bits 20:18, ro: limit that binds, decided by R483: 0 none, 1 P_MAX, 2 rack cap, 3 tray cap, 4 orphan cap, 5 brake, 6 thermal, 7 floor or emergency -/
  binding : BitVec 3 := 0
  /-- bit 21, ro: orphan cap applies -/
  orphan : Bool := false
  /-- bit 22, ro: PWR_BRAKE acts -/
  brake : Bool := false
  /-- bit 23, ro: emergency floor in force -/
  cool : Bool := false
  /-- bit 24, ro: R363 [reset: held in bedrock SRAM] -/
  tripped : Bool := false
  /-- bit 25, ro: a hint preparation is held -/
  hintHeld : Bool := false
  /-- bit 26, ro: R360 -/
  modelReady : Bool := false
  /-- bit 27, ro: R337 -/
  calibrating : Bool := false
  /-- bit 28, ro: R347 -/
  vrFault : Bool := false
  /-- bit 29, ro: R335 -/
  capUnreachable : Bool := false
  deriving DecidableEq, Repr

/-- PWR_STATUS as the word a reader of the register sees (R367); RSVD bits read zero (R9). -/
def PwrStatus.word (r : PwrStatus) : BitVec 64 :=
  packFields [(0, 4, r.step.toNat), (4, 4, r.target.toNat), (8, 7, r.lPower.toNat), (15, 1, r.vfBusy.toNat), (16, 1, r.fixed.toNat), (17, 1, r.fixedHeld.toNat), (18, 3, r.binding.toNat), (21, 1, r.orphan.toNat), (22, 1, r.brake.toNat), (23, 1, r.cool.toNat), (24, 1, r.tripped.toNat), (25, 1, r.hintHeld.toNat), (26, 1, r.modelReady.toNat), (27, 1, r.calibrating.toNat), (28, 1, r.vrFault.toNat), (29, 1, r.capUnreachable.toNat)]

/-- PWR_LIMITS, 64 bits (R367, 11_power_thermal.md). -/
structure PwrLimits where
  /-- bits 11:0, rw: rack cap in W -/
  rackCap : BitVec 12 := 0x898
  /-- bits 23:12, rw: tray cap in W -/
  trayCap : BitVec 12 := 0x960
  /-- bits 35:24, rw: brake cap in W -/
  brakeW : BitVec 12 := 1000
  /-- bits 42:36, rw: brake level, 1–64 -/
  brakeLevel : BitVec 7 := 16
  /-- bits 49:43, rw: orphan cap in percent of the rack cap, 50–100 -/
  orphanPct : BitVec 7 := 70
  /-- bits 61:50, ro: P_eff in W (R334) -/
  effective : BitVec 12 := 0x898
  deriving DecidableEq, Repr

/-- PWR_LIMITS as the word a reader of the register sees (R367); RSVD bits read zero (R9). -/
def PwrLimits.word (r : PwrLimits) : BitVec 64 :=
  packFields [(0, 12, r.rackCap.toNat), (12, 12, r.trayCap.toNat), (24, 12, r.brakeW.toNat), (36, 7, r.brakeLevel.toNat), (43, 7, r.orphanPct.toNat), (50, 12, r.effective.toNat)]

/-- PWR_CONFIG, 32 bits (R367, 11_power_thermal.md). -/
structure PwrConfig where
  /-- bit 0, rw: fixed-frequency mode (R349) -/
  fixedEn : Bool := false
  /-- bits 4:1, rw: step held in fixed mode -/
  fixedStep : BitVec 4 := 10
  /-- bit 5, rw: boost steps allowed (R348) -/
  boostEn : Bool := true
  /-- bits 9:6, ro: highest step (R343) -/
  maxStep : BitVec 4 := 15
  /-- bits 21:10, ro: package maximum in W -/
  pMax : BitVec 12 := 0x960
  /-- bits 26:22, rw: voltage margin of a hint, 0–31 mV -/
  hintMarginMv : BitVec 5 := 10
  deriving DecidableEq, Repr

/-- PWR_CONFIG as the word a reader of the register sees (R367); RSVD bits read zero (R9). -/
def PwrConfig.word (r : PwrConfig) : BitVec 32 :=
  packFields [(0, 1, r.fixedEn.toNat), (1, 4, r.fixedStep.toNat), (5, 1, r.boostEn.toNat), (6, 4, r.maxStep.toNat), (10, 12, r.pMax.toNat), (22, 5, r.hintMarginMv.toNat)]

/-- PWR_ESTIMATE, 64 bits (R367, 11_power_thermal.md). -/
structure PwrEstimate where
  /-- bits 15:0, ro: latest estimate, in units of 0.25 W -/
  est : BitVec 16 := 0
  /-- bits 31:16, ro: latest measured power, in units of 0.25 W -/
  measured : BitVec 16 := 0
  /-- bits 43:32, ro: correction factor × 1,024 (R337) -/
  k : BitVec 12 := 0x400
  deriving DecidableEq, Repr

/-- PWR_ESTIMATE as the word a reader of the register sees (R367); RSVD bits read zero (R9). -/
def PwrEstimate.word (r : PwrEstimate) : BitVec 64 :=
  packFields [(0, 16, r.est.toNat), (16, 16, r.measured.toNat), (32, 12, r.k.toNat)]

/-- PWR_GUARD, 32 bits (R367, 11_power_thermal.md). -/
structure PwrGuard where
  /-- bits 5:0, ro: guard band G (R352–R354) -/
  guardMv : BitVec 6 := 45
  /-- bits 11:6, rw: droop threshold below V_req (R351) -/
  droopMv : BitVec 6 := 30
  /-- bits 18:12, rw: level ceiling during a stall (R365) -/
  stallLevel : BitVec 7 := 48
  /-- bits 26:19, ro: hours of operation since the last successful trim, saturating [reset: from tray flash] -/
  hoursSinceTrim : BitVec 8 := 0
  deriving DecidableEq, Repr

/-- PWR_GUARD as the word a reader of the register sees (R367); RSVD bits read zero (R9). -/
def PwrGuard.word (r : PwrGuard) : BitVec 32 :=
  packFields [(0, 6, r.guardMv.toNat), (6, 6, r.droopMv.toNat), (12, 7, r.stallLevel.toNat), (19, 8, r.hoursSinceTrim.toNat)]

/-- THM_STATUS, 64 bits (R367, 11_power_thermal.md). -/
structure ThmStatus where
  /-- bits 9:0, ro: highest control reading, in units of 0.25 °C -/
  hottest : BitVec 10 := 0
  /-- bits 14:10, ro: its device-wide logical cluster -/
  hottestCluster : BitVec 5 := 0
  /-- bits 24:15, ro: inlet temperature, in units of 0.25 °C -/
  coolant : BitVec 10 := 0
  /-- bit 25, ro: R360 -/
  coolantValid : Bool := false
  /-- bits 34:26, ro: junction sensors declared faulty -/
  faulty : BitVec 9 := 0
  /-- bits 38:35, ro: bit f: field f tripped [reset: held in bedrock SRAM] -/
  tripFields : BitVec 4 := 0
  deriving DecidableEq, Repr

/-- THM_STATUS as the word a reader of the register sees (R367); RSVD bits read zero (R9). -/
def ThmStatus.word (r : ThmStatus) : BitVec 64 :=
  packFields [(0, 10, r.hottest.toNat), (10, 5, r.hottestCluster.toNat), (15, 10, r.coolant.toNat), (25, 1, r.coolantValid.toNat), (26, 9, r.faulty.toNat), (35, 4, r.tripFields.toNat)]

/-- THM_HEADROOM, 64 bits (R367, 11_power_thermal.md). -/
structure ThmHeadroom where
  /-- bits 15:0, ro: R361 -/
  sustainW : BitVec 16 := 0
  /-- bits 31:16, ro: W per minute, two's complement (R361) -/
  lossRate : BitVec 16 := 0
  /-- bits 47:32, ro: in µK/W (R360) -/
  rTh : BitVec 16 := 0x55f0
  deriving DecidableEq, Repr

/-- THM_HEADROOM as the word a reader of the register sees (R367); RSVD bits read zero (R9). -/
def ThmHeadroom.word (r : ThmHeadroom) : BitVec 64 :=
  packFields [(0, 16, r.sustainW.toNat), (16, 16, r.lossRate.toNat), (32, 16, r.rTh.toNat)]

/-- THM_SAFETYf, 64 bits (R367, 11_power_thermal.md). -/
structure ThmSafety where
  /-- bits 9:0, ro: reading of chain A, in units of 0.25 °C -/
  chainA : BitVec 10 := 0
  /-- bits 19:10, ro: chain B -/
  chainB : BitVec 10 := 0
  /-- bits 29:20, ro: chain C -/
  chainC : BitVec 10 := 0
  /-- bits 32:30, ro: bit i: chain i out of range or failed self-check -/
  chainFault : BitVec 3 := 0
  /-- bits 35:33, ro: bit i: chain i votes (R363) -/
  vote : BitVec 3 := 0
  deriving DecidableEq, Repr

/-- THM_SAFETY as the word a reader of the register sees (R367); RSVD bits read zero (R9). -/
def ThmSafety.word (r : ThmSafety) : BitVec 64 :=
  packFields [(0, 10, r.chainA.toNat), (10, 10, r.chainB.toNat), (20, 10, r.chainC.toNat), (30, 3, r.chainFault.toNat), (33, 3, r.vote.toNat)]

/-- PWR_VFs, 32 bits (R367, 11_power_thermal.md). -/
structure PwrVf where
  /-- bits 11:0, ro: ACLK of step s in MHz [reset: per R343] -/
  freqMhz : BitVec 12 := 0
  /-- bits 21:12, ro: VMIN(s) in force [reset: fused] -/
  vminMv : BitVec 10 := 0
  /-- bits 31:22, ro: V_req(s) in force [reset: per R344] -/
  vreqMv : BitVec 10 := 0
  deriving DecidableEq, Repr

/-- PWR_VF as the word a reader of the register sees (R367); RSVD bits read zero (R9). -/
def PwrVf.word (r : PwrVf) : BitVec 32 :=
  packFields [(0, 12, r.freqMhz.toNat), (12, 10, r.vminMv.toNat), (22, 10, r.vreqMv.toNat)]

/-- CLU_POWERc, 64 bits (R367, 11_power_thermal.md). -/
structure CluPower where
  /-- bits 9:0, ro: control reading, in units of 0.25 °C (R357) -/
  temp : BitVec 10 := 0
  /-- bits 17:10, ro: bit i: sensor i declared faulty -/
  faulty : BitVec 8 := 0
  /-- bits 24:18, ro: R358 -/
  thermalLevel : BitVec 7 := 64
  /-- bits 31:25, ro: level in force (R341) -/
  level : BitVec 7 := 64
  /-- bit 32, ro: a hint level applies -/
  hinted : Bool := false
  /-- bits 48:33, ro: droop events since chip reset, saturating -/
  droops : BitVec 16 := 0
  deriving DecidableEq, Repr

/-- CLU_POWER as the word a reader of the register sees (R367); RSVD bits read zero (R9). -/
def CluPower.word (r : CluPower) : BitVec 64 :=
  packFields [(0, 10, r.temp.toNat), (10, 8, r.faulty.toNat), (18, 7, r.thermalLevel.toNat), (25, 7, r.level.toNat), (32, 1, r.hinted.toNat), (33, 16, r.droops.toNat)]

/-- CLK_STATUS, 32 bits (R384, 12_clocks_states.md). -/
structure ClkStatus where
  /-- bits 3:0, ro: bit f: field f's PLL locked -/
  aclkLock : BitVec 4 := 0
  /-- bit 4, ro: NCLK PLL locked -/
  nclkLock : Bool := false
  /-- bit 5, ro: CP PLL locked -/
  cpLock : Bool := false
  /-- bit 6, ro: the CP runs on the wake clock -/
  onWake : Bool := false
  /-- bits 8:7, ro: reference of the PLLs: 0 rack, 1 PCIe A, 2 PCIe B, 3 none -/
  pllRef : BitVec 2 := 0
  /-- bit 9, ro: rack reference present -/
  refRack : Bool := false
  /-- bit 10, ro: port A reference present -/
  refPcieA : Bool := false
  /-- bit 11, ro: port B reference present -/
  refPcieB : Bool := false
  deriving DecidableEq, Repr

/-- CLK_STATUS as the word a reader of the register sees (R384); RSVD bits read zero (R9). -/
def ClkStatus.word (r : ClkStatus) : BitVec 32 :=
  packFields [(0, 4, r.aclkLock.toNat), (4, 1, r.nclkLock.toNat), (5, 1, r.cpLock.toNat), (6, 1, r.onWake.toNat), (7, 2, r.pllRef.toNat), (9, 1, r.refRack.toNat), (10, 1, r.refPcieA.toNat), (11, 1, r.refPcieB.toNat)]

/-- RT_CTRL, 32 bits (R384, 12_clocks_states.md). -/
structure RtCtrl where
  /-- bits 15:0, rw: RACK_SYNC period in ms; 0 acts as 1 -/
  periodMs : BitVec 16 := 1000
  /-- bit 16, rw: apply LOAD at the next edge; cleared by hardware when applied -/
  armLoad : Bool := false
  deriving DecidableEq, Repr

/-- RT_CTRL as the word a reader of the register sees (R384); RSVD bits read zero (R9). -/
def RtCtrl.word (r : RtCtrl) : BitVec 32 :=
  packFields [(0, 16, r.periodMs.toNat), (16, 1, r.armLoad.toNat)]

/-- RT_STATUS, 64 bits (R384, 12_clocks_states.md). -/
structure RtStatus where
  /-- bit 0, ro: a load has been applied since bedrock power-up -/
  locked : Bool := false
  /-- bit 1, ro: counting bedrock ticks -/
  coarse : Bool := true
  /-- bit 2, w1c: an edge found an error above 1 µs -/
  slip : Bool := false
  /-- bits 35:4, ro: RT_TIME − T at the latest edge, ns, two's complement, saturating -/
  lastErr : BitVec 32 := 0
  /-- bits 51:36, ro: RACK_SYNC edges seen, wrapping -/
  pulses : BitVec 16 := 0
  deriving DecidableEq, Repr

/-- RT_STATUS as the word a reader of the register sees (R384); RSVD bits read zero (R9). -/
def RtStatus.word (r : RtStatus) : BitVec 64 :=
  packFields [(0, 1, r.locked.toNat), (1, 1, r.coarse.toNat), (2, 1, r.slip.toNat), (4, 32, r.lastErr.toNat), (36, 16, r.pulses.toNat)]

/-- PS_CONFIG, 64 bits (R384, 12_clocks_states.md). -/
structure PsConfig where
  /-- bits 15:0, rw: idle time before PS1, µs; 0 disables -/
  ps1IdleUs : BitVec 16 := 50
  /-- bits 31:16, rw: idle time before PS2, ms; 0 disables -/
  ps2IdleMs : BitVec 16 := 10
  /-- bits 47:32, rw: time in PS2 before PS3, ms (R377) -/
  ps3IdleMs : BitVec 16 := 1000
  /-- bits 59:48, rw: time in PS3 before PS4, s; 0 disables -/
  ps4IdleS : BitVec 12 := 0
  /-- bit 60, rw: PS3 permitted -/
  ps3En : Bool := true
  deriving DecidableEq, Repr

/-- PS_CONFIG as the word a reader of the register sees (R384); RSVD bits read zero (R9). -/
def PsConfig.word (r : PsConfig) : BitVec 64 :=
  packFields [(0, 16, r.ps1IdleUs.toNat), (16, 16, r.ps2IdleMs.toNat), (32, 16, r.ps3IdleMs.toNat), (48, 12, r.ps4IdleS.toNat), (60, 1, r.ps3En.toNat)]

/-- PS_CONFIG from the word written to it; bits written to RSVD are ignored (R9). -/
def PsConfig.ofWord (w : BitVec 64) : PsConfig :=
  { ps1IdleUs := w.extractLsb' 0 16, ps2IdleMs := w.extractLsb' 16 16, ps3IdleMs := w.extractLsb' 32 16, ps4IdleS := w.extractLsb' 48 12, ps3En := w.getLsbD 60 }

/-- PS_STATUS, 32 bits (R384, 12_clocks_states.md). -/
structure PsStatus where
  /-- bits 7:0, ro: 2 bits per partition p at [2p+1:2p]: 0 PS0, 1 PS1, 2 PS2, 3 held in reset or absent -/
  partState : BitVec 8 := 0
  /-- bits 10:8, ro: latest wake from PS3 or PS4: 0 none, 1 WAKE0, 2 WAKE1, 3 PCIe A, 4 PCIe B, 5 management, 6 bedrock deadline -/
  wakeSrc : BitVec 3 := 0
  /-- bit 11, ro: entry to a package state in progress -/
  entering : Bool := false
  /-- bits 31:12, ro: wakes from PS3 or PS4 since bedrock power-up, saturating -/
  wakes : BitVec 20 := 0
  deriving DecidableEq, Repr

/-- PS_STATUS as the word a reader of the register sees (R384); RSVD bits read zero (R9). -/
def PsStatus.word (r : PsStatus) : BitVec 32 :=
  packFields [(0, 8, r.partState.toNat), (8, 3, r.wakeSrc.toNat), (11, 1, r.entering.toNat), (12, 20, r.wakes.toNat)]

/-- WAKE_CONFIG, 32 bits (R384, 12_clocks_states.md). -/
structure WakeConfig where
  /-- bit 0, rw: WAKE0 wakes -/
  wake0En : Bool := false
  /-- bit 1, rw: asserted level of WAKE0: 0 low, 1 high -/
  wake0Pol : Bool := false
  /-- bit 2, rw: WAKE1 wakes -/
  wake1En : Bool := false
  /-- bit 3, rw: asserted level of WAKE1 -/
  wake1Pol : Bool := false
  /-- bit 4, rw: PCIe activity wakes -/
  pcieEn : Bool := true
  /-- bit 5, rw: management traffic wakes -/
  mgmtEn : Bool := true
  deriving DecidableEq, Repr

/-- WAKE_CONFIG as the word a reader of the register sees (R384); RSVD bits read zero (R9). -/
def WakeConfig.word (r : WakeConfig) : BitVec 32 :=
  packFields [(0, 1, r.wake0En.toNat), (1, 1, r.wake0Pol.toNat), (2, 1, r.wake1En.toNat), (3, 1, r.wake1Pol.toNat), (4, 1, r.pcieEn.toNat), (5, 1, r.mgmtEn.toNat)]

/-- WAKE_CONFIG from the word written to it; bits written to RSVD are ignored (R9). -/
def WakeConfig.ofWord (w : BitVec 32) : WakeConfig :=
  { wake0En := w.getLsbD 0, wake0Pol := w.getLsbD 1, wake1En := w.getLsbD 2, wake1Pol := w.getLsbD 3, pcieEn := w.getLsbD 4, mgmtEn := w.getLsbD 5 }

/-- BOOT_STATUS, 64 bits (R402, 13_bringup.md). -/
structure BootStatus where
  /-- bits 3:0, ro: stage running, or 9 once ready -/
  stage : BitVec 4 := 0
  /-- bits 7:4, ro: as in the cairn record -/
  startKind : BitVec 4 := 0
  /-- bits 10:8, ro: outcome of STAGE -/
  outcome : BitVec 3 := 0
  /-- bit 11, ro: S9 has ended -/
  ready : Bool := false
  /-- bit 12, ro: R386 -/
  halted : Bool := false
  /-- bits 31:16, ro: starts of every kind since bedrock power-up, wrapping -/
  starts : BitVec 16 := 0
  /-- bits 47:32, ro: STATUS of the latest failed or remarked stage -/
  lastStatus : BitVec 16 := 0
  deriving DecidableEq, Repr

/-- BOOT_STATUS as the word a reader of the register sees (R402); RSVD bits read zero (R9). -/
def BootStatus.word (r : BootStatus) : BitVec 64 :=
  packFields [(0, 4, r.stage.toNat), (4, 4, r.startKind.toNat), (8, 3, r.outcome.toNat), (11, 1, r.ready.toNat), (12, 1, r.halted.toNat), (16, 16, r.starts.toNat), (32, 16, r.lastStatus.toNat)]

/-- BOOT_CONFIG, 32 bits (R402, 13_bringup.md). -/
structure BootConfig where
  /-- bit 0, ro: R397 [reset: from `STRAP_RESET_STYLE`] -/
  wholeOnly : Bool := false
  /-- bits 3:1, ro: management address strap [reset: from `STRAP_ADDR`] -/
  strapAddr : BitVec 3 := 0
  /-- bits 5:4, ro: 0 CVA-9216, 1 C1, 2 C2, 3 not used (R400) [reset: fused] -/
  limitSet : BitVec 2 := 0
  /-- bit 6, ro: S8 took the layout from tray flash -/
  flashLayout : Bool := false
  deriving DecidableEq, Repr

/-- BOOT_CONFIG as the word a reader of the register sees (R402); RSVD bits read zero (R9). -/
def BootConfig.word (r : BootConfig) : BitVec 32 :=
  packFields [(0, 1, r.wholeOnly.toNat), (1, 3, r.strapAddr.toNat), (4, 2, r.limitSet.toNat), (6, 1, r.flashLayout.toNat)]

/-- LICENCE_STATE, 32 bits (R402, 13_bringup.md). -/
structure LicenceState where
  /-- bits 4:0, ro: bit i: feature i of Licensed features in force [reset: set at S8] -/
  granted : BitVec 5 := 0
  /-- bits 12:8, ro: bit i: licensed, awaiting its point of effect (R399) -/
  pending : BitVec 5 := 0
  deriving DecidableEq, Repr

/-- LICENCE_STATE as the word a reader of the register sees (R402); RSVD bits read zero (R9). -/
def LicenceState.word (r : LicenceState) : BitVec 32 :=
  packFields [(0, 5, r.granted.toNat), (8, 5, r.pending.toNat)]

/-- DEFECT_SUMMARY, 64 bits (R402, 13_bringup.md). -/
structure DefectSummary where
  /-- bits 10:0, ro: core slots treated as bad, outside retired clusters [reset: set at S5] -/
  slotsBad : BitVec 11 := 0
  /-- bits 21:11, ro: good slots holding no logical index [reset: set at S5] -/
  sparesLeft : BitVec 11 := 0
  /-- bits 27:22, ro: 0–32 [reset: set at S5] -/
  clustersRetired : BitVec 6 := 0
  /-- bits 43:28, ro: page groups retired from the fuses [reset: set at S4] -/
  pageGroups : BitVec 16 := 0
  /-- bits 59:44, ro: DISAGREE of S2 plus that of S5 at the latest start [reset: set at S5] -/
  disagree : BitVec 16 := 0
  deriving DecidableEq, Repr

/-- DEFECT_SUMMARY as the word a reader of the register sees (R402); RSVD bits read zero (R9). -/
def DefectSummary.word (r : DefectSummary) : BitVec 64 :=
  packFields [(0, 11, r.slotsBad.toNat), (11, 11, r.sparesLeft.toNat), (22, 6, r.clustersRetired.toNat), (28, 16, r.pageGroups.toNat), (44, 16, r.disagree.toNat)]

/-- CLU_MAPc, 64 bits (R402, 13_bringup.md). -/
structure CluMap where
  /-- bits 35:0, ro: bit s: physical slot s treated as bad [reset: set at S5 and partition reset] -/
  bad : BitVec 36 := 0
  /-- bit 36, ro: R394 [reset: set at S5 and partition reset] -/
  retired : Bool := false
  /-- bits 39:37, ro: good unmapped slots, 0–4 [reset: set at S5 and partition reset] -/
  spares : BitVec 3 := 0
  deriving DecidableEq, Repr

/-- CLU_MAP as the word a reader of the register sees (R402); RSVD bits read zero (R9). -/
def CluMap.word (r : CluMap) : BitVec 64 :=
  packFields [(0, 36, r.bad.toNat), (36, 1, r.retired.toNat), (37, 3, r.spares.toNat)]

/-- RCV_CONFIG, 64 bits (R432, 14_recovery.md). -/
structure RcvConfig where
  /-- bits 15:0, rw: context watchdog period in ms; 0 acts as 1 -/
  ctxWdMs : BitVec 16 := 0x7d0
  /-- bits 23:16, rw: engine watchdog period in ms; 0 acts as 1 -/
  engWdMs : BitVec 8 := 10
  /-- bits 31:24, rw: partition watchdog period in ms; values below 20 act as 20 -/
  partWdMs : BitVec 8 := 100
  /-- bits 45:32, rw: CP watchdog period in µs, 100–10,000; out-of-range values are clamped -/
  cpWdUs : BitVec 14 := 500
  /-- bits 47:46, rw: R409 -/
  autoLevel : BitVec 2 := 3
  /-- bits 53:48, rw: dump budget in ms (R419); 0 acts as 1 -/
  dumpBudgetMs : BitVec 6 := 20
  /-- bit 54, rw: dumps taken (R415) -/
  dumpEn : Bool := true
  deriving DecidableEq, Repr

/-- RCV_CONFIG as the word a reader of the register sees (R432); RSVD bits read zero (R9). -/
def RcvConfig.word (r : RcvConfig) : BitVec 64 :=
  packFields [(0, 16, r.ctxWdMs.toNat), (16, 8, r.engWdMs.toNat), (24, 8, r.partWdMs.toNat), (32, 14, r.cpWdUs.toNat), (46, 2, r.autoLevel.toNat), (48, 6, r.dumpBudgetMs.toNat), (54, 1, r.dumpEn.toNat)]

/-- RCV_CONFIG from the word written to it; bits written to RSVD are ignored (R9). -/
def RcvConfig.ofWord (w : BitVec 64) : RcvConfig :=
  { ctxWdMs := w.extractLsb' 0 16, engWdMs := w.extractLsb' 16 8, partWdMs := w.extractLsb' 24 8, cpWdUs := w.extractLsb' 32 14, autoLevel := w.extractLsb' 46 2, dumpBudgetMs := w.extractLsb' 48 6, dumpEn := w.getLsbD 54 }

/-- RCV_STATUS, 64 bits (R432, 14_recovery.md). -/
structure RcvStatus where
  /-- bits 15:0, ro: code of the latest escalation -/
  lastCode : BitVec 16 := 0
  /-- bits 18:16, ro: its level, 1–5; 0 none -/
  lastLevel : BitVec 3 := 0
  /-- bits 20:19, ro: its partition -/
  lastPart : BitVec 2 := 0
  /-- bits 30:21, ro: its logical core; 0x3FF none -/
  lastCore : BitVec 10 := 0
  /-- bits 47:32, ro: engine resets, saturating -/
  engineResets : BitVec 16 := 0
  /-- bits 63:48, ro: partition resets taken by the device, saturating -/
  partResets : BitVec 16 := 0
  deriving DecidableEq, Repr

/-- RCV_STATUS as the word a reader of the register sees (R432); RSVD bits read zero (R9). -/
def RcvStatus.word (r : RcvStatus) : BitVec 64 :=
  packFields [(0, 16, r.lastCode.toNat), (16, 3, r.lastLevel.toNat), (19, 2, r.lastPart.toNat), (21, 10, r.lastCore.toNat), (32, 16, r.engineResets.toNat), (48, 16, r.partResets.toNat)]

/-- CP_STATUS, 64 bits (R432, 14_recovery.md). -/
structure CpStatus where
  /-- bit 0, ro: 0 CP-A, 1 CP-B -/
  active : Bool := false
  /-- bits 2:1, ro: journal token: 0 CP-A, 1 CP-B, 2 none (R427) -/
  token : BitVec 2 := 0
  /-- bits 5:3, ro: 0 running, 1 held, 2 self-test, 3 retired, 4 handing back -/
  cpaState : BitVec 3 := 0
  /-- bits 8:6, ro: 0 gated, 1 self-test, 2 booting, 3 running, 4 failed -/
  cpbState : BitVec 3 := 0
  /-- bit 9, ro: latest self-test passed -/
  cpbHealthy : Bool := false
  /-- bits 25:10, ro: switch-overs since bedrock power-up, saturating -/
  switchovers : BitVec 16 := 0
  /-- bits 37:26, ro: latest gap in µs, saturating -/
  lastGapUs : BitVec 12 := 0
  /-- bits 47:38, ro: seconds since CP-B's latest passed self-test, saturating -/
  cpbTestAgeS : BitVec 10 := 1023
  /-- bits 49:48, ro: switch-overs within the latest 24 hours of operation -/
  recent : BitVec 2 := 0
  deriving DecidableEq, Repr

/-- CP_STATUS as the word a reader of the register sees (R432); RSVD bits read zero (R9). -/
def CpStatus.word (r : CpStatus) : BitVec 64 :=
  packFields [(0, 1, r.active.toNat), (1, 2, r.token.toNat), (3, 3, r.cpaState.toNat), (6, 3, r.cpbState.toNat), (9, 1, r.cpbHealthy.toNat), (10, 16, r.switchovers.toNat), (26, 12, r.lastGapUs.toNat), (38, 10, r.cpbTestAgeS.toNat), (48, 2, r.recent.toNat)]

/-- SAFE_STATUS, 32 bits (R432, 14_recovery.md). -/
structure SafeStatus where
  /-- bits 3:0, ro: cause of the latched trip (R429); zero with TRIPPED clear -/
  tripCause : BitVec 4 := 0
  /-- bits 7:4, ro: field or rail -/
  tripWhere : BitVec 4 := 0
  /-- bits 10:8, ro: bit i: overcurrent chain i votes -/
  ocVote : BitVec 3 := 0
  /-- bits 13:11, ro: bit i: core overvoltage chain i votes -/
  ovVote : BitVec 3 := 0
  /-- bits 16:14, ro: bit i: electrical chain i failed its self-check -/
  chainFault : BitVec 3 := 0
  deriving DecidableEq, Repr

/-- SAFE_STATUS as the word a reader of the register sees (R432); RSVD bits read zero (R9). -/
def SafeStatus.word (r : SafeStatus) : BitVec 32 :=
  packFields [(0, 4, r.tripCause.toNat), (4, 4, r.tripWhere.toNat), (8, 3, r.ocVote.toNat), (11, 3, r.ovVote.toNat), (14, 3, r.chainFault.toNat)]

/-- PART_RCV, 64 bits (R433, 14_recovery.md). -/
structure PartRcv where
  /-- bits 3:0, rs: bit s: slot s holds a dump (R416) [reset: held in bedrock SRAM] -/
  dumpSlots : BitVec 4 := 0
  /-- bits 5:4, rs: slot of the latest dump [reset: held in bedrock SRAM] -/
  latestSlot : BitVec 2 := 0
  /-- bits 15:8, rs: dumps not taken for want of a slot, saturating [reset: held in bedrock SRAM] -/
  skipped : BitVec 8 := 0
  /-- bits 31:16, rs: context aborts, saturating [reset: held in bedrock SRAM] -/
  aborts : BitVec 16 := 0
  /-- bits 47:32, rs: engine resets in the partition, saturating [reset: held in bedrock SRAM] -/
  engineResets : BitVec 16 := 0
  /-- bits 63:48, rs: 0x0701 events of kinds 0 and 1, saturating [reset: held in bedrock SRAM] -/
  unitsLost : BitVec 16 := 0
  deriving DecidableEq, Repr

/-- PART_RCV as the word a reader of the register sees (R433); RSVD bits read zero (R9). -/
def PartRcv.word (r : PartRcv) : BitVec 64 :=
  packFields [(0, 4, r.dumpSlots.toNat), (4, 2, r.latestSlot.toNat), (8, 8, r.skipped.toNat), (16, 16, r.aborts.toNat), (32, 16, r.engineResets.toNat), (48, 16, r.unitsLost.toNat)]

/-- MGMT_STATUS, 64 bits (R464, 15_security_management.md). -/
structure MgmtStatus where
  /-- bit 0, ro: management Ethernet link up -/
  ethUp : Bool := false
  /-- bit 1, ro: dynamic I3C address assigned -/
  i3cDyn : Bool := false
  /-- bits 5:2, ro: R442, saturating at 15 -/
  hbMissed : BitVec 4 := 0
  /-- bit 6, ro: R443 -/
  orphan : Bool := false
  /-- bit 7, ro: a key holds the RACK role -/
  rackKey : Bool := false
  /-- bits 23:8, ro: entries into orphan mode, saturating -/
  orphanEntries : BitVec 16 := 0
  /-- bits 39:24, ro: messages refused under R438, saturating -/
  rejected : BitVec 16 := 0
  /-- bits 55:40, ro: code of the latest refusal -/
  lastReject : BitVec 16 := 0
  deriving DecidableEq, Repr

/-- MGMT_STATUS as the word a reader of the register sees (R464); RSVD bits read zero (R9). -/
def MgmtStatus.word (r : MgmtStatus) : BitVec 64 :=
  packFields [(0, 1, r.ethUp.toNat), (1, 1, r.i3cDyn.toNat), (2, 4, r.hbMissed.toNat), (6, 1, r.orphan.toNat), (7, 1, r.rackKey.toNat), (8, 16, r.orphanEntries.toNat), (24, 16, r.rejected.toNat), (40, 16, r.lastReject.toNat)]

/-- SEC_STATUS, 64 bits (R464, 15_security_management.md). -/
structure SecStatus where
  /-- bits 2:0, ro: 0 BLANK, 1 PROVISIONED, 2 FIELD, 3 RETURNED, 4 SCRAPPED [reset: from fuses] -/
  lifecycle : BitVec 3 := 0
  /-- bits 4:3, ro: owner fuse slot in use [reset: from fuses] -/
  ownerSlot : BitVec 2 := 0
  /-- bits 7:5, ro: 0–4 [reset: from fuses] -/
  ownerSlotsUsed : BitVec 3 := 0
  /-- bits 13:8, ro: R454 [reset: from fuses] -/
  svnCounter : BitVec 6 := 0
  /-- bit 14, ro: R435 [reset: per state] -/
  debugOpen : Bool := false
  /-- bit 15, ro: R446 -/
  identityOk : Bool := false
  /-- bits 18:16, ro: bit k − 1: slot k enrolled, k = 1–3 -/
  keys : BitVec 3 := 0
  /-- bits 47:32, ro: bit i: licence place i holds a valid licence -/
  grantedIds : BitVec 16 := 0
  deriving DecidableEq, Repr

/-- SEC_STATUS as the word a reader of the register sees (R464); RSVD bits read zero (R9). -/
def SecStatus.word (r : SecStatus) : BitVec 64 :=
  packFields [(0, 3, r.lifecycle.toNat), (3, 2, r.ownerSlot.toNat), (5, 3, r.ownerSlotsUsed.toNat), (8, 6, r.svnCounter.toNat), (14, 1, r.debugOpen.toNat), (15, 1, r.identityOk.toNat), (16, 3, r.keys.toNat), (32, 16, r.grantedIds.toNat)]

/-- FW_VERSION, 64 bits (R464, 15_security_management.md). -/
structure FwVersion where
  /-- bits 15:0, ro: running image [reset: set at S1] -/
  major : BitVec 16 := 0
  /-- bits 31:16, ro: running image [reset: set at S1] -/
  minor : BitVec 16 := 0
  /-- bits 37:32, ro: running image [reset: set at S1] -/
  svn : BitVec 6 := 0
  /-- bit 38, ro: R455 [reset: set at S1] -/
  activeSlot : Bool := false
  /-- bit 39, ro: R453 [reset: set at S1] -/
  slot0Valid : Bool := false
  /-- bit 40, ro: R453 [reset: set at S1] -/
  slot1Valid : Bool := false
  deriving DecidableEq, Repr

/-- FW_VERSION as the word a reader of the register sees (R464); RSVD bits read zero (R9). -/
def FwVersion.word (r : FwVersion) : BitVec 64 :=
  packFields [(0, 16, r.major.toNat), (16, 16, r.minor.toNat), (32, 6, r.svn.toNat), (38, 1, r.activeSlot.toNat), (39, 1, r.slot0Valid.toNat), (40, 1, r.slot1Valid.toNat)]

/-- TRIAL_STATUS, 32 bits (R464, 15_security_management.md). -/
structure TrialStatus where
  /-- bit 0, ro: a trial runs [reset: set at S1] -/
  trial : Bool := false
  /-- bits 2:1, ro: R455 [reset: set at S1] -/
  trialStarts : BitVec 2 := 0
  /-- bits 12:3, ro: TRIAL_SECONDS, saturating at 1,023 [reset: set at S1] -/
  seconds : BitVec 10 := 0
  /-- bit 13, ro: CP-B passed on the trial image -/
  cpbTested : Bool := false
  /-- bit 14, ro: every condition of R460 holds -/
  healthOk : Bool := false
  deriving DecidableEq, Repr

/-- TRIAL_STATUS as the word a reader of the register sees (R464); RSVD bits read zero (R9). -/
def TrialStatus.word (r : TrialStatus) : BitVec 32 :=
  packFields [(0, 1, r.trial.toNat), (1, 2, r.trialStarts.toNat), (3, 10, r.seconds.toNat), (13, 1, r.cpbTested.toNat), (14, 1, r.healthOk.toNat)]

end Sys2Proof.Machine
end

