-- ==== Sys2Proof/Machine/CoreState.lean ====
section
/-! DEFINITION. The state of a core, of a cluster's ramp, of stream queues and of DMA engines. -/

namespace Sys2Proof.Machine

/-- The context a core runs (R76, R217): the LAUNCH or COLLECTIVE_START operation it belongs to, its
segment's image and length (R426). -/
structure Ctx where
  op : Nat
  /-- A lane context of a collective (R316). -/
  lane : Bool := false
  /-- The lane's number. -/
  laneNo : Nat := 0
  imageBase : Nat
  segLen : Nat
  deriving DecidableEq, Repr

/-- An outstanding matrix operation: its descriptor as copied at issue, and where it was issued
(R84, R104). -/
structure MmOp where
  desc : BitVec 1024
  pc : Word
  order : Word
  deriving DecidableEq, Repr

/-- Where a core stands at a barrier (R95, R97). -/
inductive BarState where
  | none
  /-- Arrived; the scope is the partition or the cluster. -/
  | arrived (partition : Bool)
  /-- Released, but its ramp wave is not enabled yet. -/
  | released
  deriving DecidableEq, Repr

/-- A core's architectural state (R77, R84, R100, R101, R231). -/
structure Core where
  g : Vector Word 32 := Vector.replicate 32 0
  v : Vector Block 32 := Vector.replicate 32 0
  vp : BitVec 32 := 0
  slots : Vector (BitVec 1024) 8 := Vector.replicate 8 0
  pc : Word := 0
  progress : Word := 0
  ctrl : CoreCtrl := {}
  /-- CORE_STATUS.STATE; the other fields of CORE_STATUS follow from the state (R101). -/
  state : BitVec 3 := 0
  fault : CoreFault := {}
  faultPc : Word := 0
  faultAddr : Word := 0
  arith : CoreArithStatus := {}
  arithCtrl : CoreArithCtrl := {}
  vec : CoreVecStatus := {}
  seed : Word := 0
  poison : CorePoison := {}
  ctx : Option Ctx := none
  /-- The instruction that waits (R78, R81, R84, R95). -/
  held : Option Instr := none
  bar : BarState := .none
  mms : List MmOp := []
  /-- A fault of the running context is recorded; the place of its instruction in program order. -/
  faulted : Bool := false
  faultOrder : Word := 0
  /-- Firmware is ending the context (R410). -/
  aborting : Bool := false
  /-- The core was lost to a hang that no engine reset ended (R395, R409). -/
  lost : Bool := false
  carry : Vector Word 32 := Vector.replicate 32 0
  deriving DecidableEq, Repr

/-- A cluster's issue level and ramp (R96 to R98). -/
structure Clu where
  level : BitVec 7 := 64
  ramping : Bool := false
  /-- Waves 0 to 7 whose engines are enabled. -/
  waves : BitVec 8 := 0
  quiet : Bool := true
  deriving DecidableEq, Repr

/-- A queue word with its tag (R147). -/
structure QWord where
  data : Line
  parity : BitVec 8
  fin : Bool
  poison : Bool
  deriving DecidableEq, Repr

/-- A queue binding's peer (R145, R163): QIN_SRC, or QOUT_DST without VALID and BREAK_REASON. -/
structure QPeer where
  device : DeviceNo := 0
  part : BitVec 2 := 0
  core : BitVec 10 := 0
  queue : BitVec 3 := 0
  bindGen : BitVec 8 := 0
  deriving DecidableEq, Repr

/-- An inbound side (R144 to R163). -/
structure QIn where
  cfg : QinCfg := {}
  src : QPeer := {}
  st : QinState := {}
  /-- The words that arrived and are not yet consumed, by slot; in host mode they also stand in the scree. -/
  words : Table (Option QWord) := []
  /-- Core mode: slots in the order in which their words arrived, oldest first (R146). -/
  arrivals : List Nat := []
  /-- Core mode: slots whose words are held in the scree (R146, R149). -/
  inScree : List Nat := []
  /-- Host mode: slots whose DATA and tag writes are not acknowledged yet: such a word is not present (R151, R160). -/
  storing : List Nat := []
  /-- Consumed slots not yet returned as credits (R150). -/
  unreturned : Nat := 0
  /-- Host mode: packets whose words have all arrived and are not all present yet: first slot and words (R151, R160). -/
  toAck : List (Nat × Nat) := []
  /-- A marked packet arrived since the last CREDIT (R301). -/
  echo : Bool := false
  /-- The BIND_GEN the register holds since the partition reset (R230). -/
  heldGen : Option (BitVec 8) := none
  deriving DecidableEq, Repr

/-- An outbound binding (R144, R150, R151, R157). -/
structure QOut where
  dst : QPeer := {}
  valid : Bool := false
  breakReason : Code := 0
  st : QoutState := {}
  /-- Words sent and not acknowledged. -/
  unacked : Nat := 0
  /-- The last word pushed did not end its packet (R277). -/
  midPacket : Bool := false
  heldGen : Option (BitVec 8) := none
  deriving DecidableEq, Repr

/-- A host-queue slot's registers (R164). -/
structure HostQ where
  cfg : HqCfg := {}
  base : HqBase := {}
  head : BitVec 20 := 0
  tail : HqTail := {}
  deriving DecidableEq, Repr

/-- Who posted a descriptor: a core's context, or firmware for the stream (R165, R177, R218). -/
structure DmaPost where
  desc : BitVec 512
  /-- Logical core number, 0x3FF for firmware. -/
  poster : BitVec 10
  /-- The stream operation whose work the descriptor is; none outside a stream. -/
  op : Option Nat
  deriving DecidableEq, Repr

/-- A part of a transfer under way, as one read and one write request: its number, its unit (R175), where its bytes go,
and the address operand of the request outstanding. -/
structure DmaPiece where
  seq : Nat
  unit : Nat
  /-- Destination address operand's space and place. -/
  dst : Word
  dstAddr : Nat
  len : Nat
  /-- Waiting for the source's bytes of another package or partition. -/
  reading : Bool
  addr : Word
  /-- The bytes and their poison while the write waits to be issued in the order of R168. -/
  data : Option (List (Byte × Bool)) := none
  deriving DecidableEq, Repr

/-- A DMA channel (R165 to R177). -/
structure DmaChan where
  state : BitVec 3 := 0
  poisonSeen : Bool := false
  descs : List DmaPost := []
  progress : DmaChProgress := {}
  count : DmaChCount := {}
  irqPending : Bool := false
  /-- MSI-X vector bound by DMA_IRQ_BIND (R172). -/
  irqVector : Option (BitVec 8) := none
  /-- Where the next request begins: unit and byte within it. -/
  nextUnit : Nat := 0
  nextByte : Nat := 0
  out : List DmaPiece := []
  /-- The lowest unit of which a request was refused or timed out (R174, R175). -/
  failUnit : Option Nat := none
  /-- Requests of cancelled descriptors that may still be performed (R176). -/
  cancelled : List DmaPiece := []
  nextSeq : Nat := 0
  deriving DecidableEq, Repr

/-- A cluster's DMA engine (R165, R174). -/
structure DmaEng where
  status : DmaEngStatus := {}
  err : Word := 0
  chans : Vector DmaChan 16 := Vector.replicate 16 {}
  /-- Outstanding responses have settled and the CP was interrupted (R174, step 3). -/
  settled : Bool := true
  deriving DecidableEq, Repr

end Sys2Proof.Machine
end

