-- ==== Sys2Proof/Machine/PartState.lean ====
section
/-! DEFINITION. The state of stacked memory and its controllers, of a partition, and of the stream it
runs. -/

namespace Sys2Proof.Machine

/-- Granule metadata (R123). -/
structure Meta where
  wipeGen : BitVec 4 := 0
  owner : BitVec 2 := 0
  poison : Bool := false
  keep : Bool := false
  poisonSrc : BitVec 2 := 0
  deriving DecidableEq, Repr

/-- What decides where a device-local address lies (R113 to R115): the mode, the fields of each
partition, and the pages of each field's region. -/
structure Placement where
  all : Bool := false
  layout : List (List Nat) := []
  fieldPages : List Nat := []
  deriving DecidableEq, Repr

/-- What a full fill wrote to every granule of a stack (R135). -/
structure FillRec where
  place : Placement := {}
  gens : List (BitVec 4) := []
  dumpGens : List (BitVec 4) := []
  deriving DecidableEq, Repr

/-- A memory controller (R125 to R129, R142). -/
structure Mc where
  status : McStatus := {}
  temp : McTemp := {}
  errCount : McErrCount := {}
  errLog : McErrLog := {}
  spare : McSpare := {}
  patrol : McPatrol := {}
  fill : Option FillRec := none
  /-- Granules with a recent correction, oldest first, at most 1,024 (R125). -/
  history : List Nat := []
  /-- Pages retired since the latest start, by stack page number (R127). -/
  retired : List Nat := []
  /-- The pages whose copies are in progress (R127). -/
  copying : List Nat := []
  /-- Pages due for retirement while the pool is empty (R129). -/
  waiting : List Nat := []
  deriving DecidableEq, Repr

/-- Stacked memory: the granules' bytes at stack × 2^36 + stack offset, and the metadata of the
granules written since their stack's full fill, at that address divided by 256 (R114, R121). -/
structure Stacks where
  data : Mem := []
  metas : Table (Option Meta) := []
  mcs : Vector Mc 12 := Vector.replicate 12 {}
  /-- GiB retired from each field, in force since the latest partition reset or start (R108, R390). -/
  retiredGib : List Nat := [0, 0, 0, 0]
  deriving DecidableEq, Repr

/-- An entry of an event log (R197). -/
structure EvtEntry where
  time : Word := 0
  code : Code := 0
  part : BitVec 2 := 0
  chip : Bool := false
  detail : BitVec 32 := 0
  deriving DecidableEq, Repr

/-- An event log (R197 to R199): the ring's entries by slot. -/
structure EvtLog where
  ctrl : EvtCtrl := {}
  tail : EvtTail := {}
  entries : Table EvtEntry := []
  deriving DecidableEq, Repr

/-- A resident stratum: what firmware copied of it (R226 to R228), as bits, and where its record lies (R225,
R424). -/
structure Stratum where
  header : BitVec 2048
  /-- Segment table entries of 16 bytes. -/
  segs : List (BitVec 128)
  /-- Queue layout entries of 32 bytes. -/
  queues : List (BitVec 256)
  /-- The record's device-local address and length in bytes. -/
  addr : Nat
  len : Nat
  deriving DecidableEq, Repr

/-- How far an operation of a stream has come (R221). -/
inductive OpState where
  | waiting | started | completed
  deriving DecidableEq, Repr

/-- A job of the running stream (R209 to R211). -/
structure Job where
  stratum : BitVec 6
  seed : Word
  /-- The conditions of R38 that failed: bit 0 relaxed remote add, 1 seed not supplied, 2 versions that differ. -/
  notClaimed : BitVec 3 := 0
  /-- The failure that ended the job, or 0. -/
  fail : Code := 0
  tStart : Word := 0
  ended : Bool := false
  /-- A channel moved poisoned data or a context consumed poison for this job (R106, R173). -/
  poisoned : Bool := false
  /-- The calibration ran throughout the job (R239). -/
  calibrated : Bool := false
  deriving DecidableEq, Repr

/-- A lane of a collective: logical core, inbound and outbound queue (R310). -/
structure Lane where
  core : Nat
  inQ : Nat
  outQ : Nat
  deriving DecidableEq, Repr

/-- A collective group resolved in the current job (R310 to R312, R315). -/
structure Group where
  number : BitVec 16
  nextSeq : BitVec 32 := 1
  ranks : List Nat := []
  pos : Nat := 0
  lanes : List Lane := []
  deriving DecidableEq, Repr

/-- A collective that has started and not completed (R315 to R317, R319). -/
structure Coll where
  op : Nat
  group : BitVec 16
  seq : BitVec 32
  lanes : List Lane := []
  hash : Word := 0
  pos : Nat := 0
  size : Nat := 0
  /-- At the root of a broadcast: what its multicast slots hold, but for the core (R326). -/
  mcast : Option ColMcast := none
  deriving DecidableEq, Repr

/-- A launch that is still to be made: the operation, the logical core, and a lane's number (R217, R316). -/
structure Due where
  op : Nat
  core : Fin 1024
  lane : Nat := 0
  deriving DecidableEq, Repr

/-- The running stream (R208 to R224). -/
structure Stream where
  seq : BitVec 48
  mb : MbId
  bindGen : BitVec 8 := 0
  phases : Nat := 0
  ops : List (BitVec 512) := []
  opStates : List OpState := []
  decls : List (BitVec 64) := []
  ranks : List (BitVec 32) := []
  myRank : Nat := 0
  /-- Phases opened so far (R220). -/
  opened : Nat := 0
  jobs : List Job := []
  toLaunch : List Due := []
  /-- The rounds that running BARRIERs wait for: operation and round (R308). -/
  rounds : List (Nat × Nat) := []
  /-- The SEQ recorded for a rank (R308). -/
  rankSeqs : List (Nat × BitVec 48) := []
  /-- Step 3 of a switch runs: the operation, and whether its restore may still start (R235, R242). -/
  switching : Option Nat := none
  /-- The failure that is ending the stream (R241). -/
  ending : Option Code := none
  /-- A failure that waits until firmware serves again (R243). -/
  failDue : Option Code := none
  groups : List Group := []
  colls : List Coll := []
  /-- Queues that running collectives have claimed: logical core and queue (R315). -/
  claimed : List (Nat × Nat) := []
  /-- Descriptors that a DMA operation has posted so far: operation and count (R218, R426). -/
  posting : List (Nat × Nat) := []
  /-- STREAM_ABORT commands that wait for this stream's end (R195). -/
  aborters : List MbId := []
  deriving DecidableEq, Repr

/-- What STRATUM_LOAD prepares: the windows, the set-0 entries with their two peers resolved, the restore's moves (save area,
SRAM, bytes) and the staged head of each segment's image (R234). -/
structure StratumPrep where
  windows : Vector MemWindow 8
  bindings : List (BitVec 256 × QPeer × QPeer)
  moves : List (Nat × Nat × Nat)
  staging : List (List Byte)
  deriving DecidableEq, Repr

/-- A final or checkpoint energy record (R238). -/
structure EnergyRec where
  seq : BitVec 48
  job : BitVec 8
  stratum : BitVec 6
  checkpoint : Bool
  calibrated : Bool
  tStart : Word
  tEnd : Word
  total : Word
  compute : Word
  memory : Word
  fabric : Word
  status : Code
  deriving DecidableEq, Repr

/-- The energy counted for a partition's accounts, in picojoules (R237, R338). -/
structure Energy where
  compute : Nat := 0
  memory : Nat := 0
  fabric : Nat := 0
  total : Nat := 0
  deriving DecidableEq, Repr

/-- A BARRIER packet the CP keeps until a BARRIER uses it (R308). -/
structure KeptBarrier where
  src : DeviceNo
  spart : BitVec 2
  id : BitVec 16
  round : BitVec 4
  rank : BitVec 16
  seq : BitVec 48
  deriving DecidableEq, Repr

/-- A held power hint (R350). -/
structure Hint where
  /-- A voltage preparation; else the clusters are armed. -/
  margin : Bool
  /-- Hint levels of armed clusters, by device-wide number. -/
  levels : List (Nat × Nat) := []
  step : Nat := 15
  /-- Rack time at which the preparation ends. -/
  until_ : Word
  deriving DecidableEq, Repr

/-- A reset of a core's units or of a partition that is due or in progress (R407, R408, R412). -/
structure ResetReq where
  /-- 2 engine reset, 3 partition reset. -/
  level : BitVec 3
  trigger : Code
  /-- The logical core of the trigger; 0x3FF none. -/
  core : BitVec 10 := 0x3FF
  /-- The commands that wait for the partition to have left reset. -/
  mbs : List MbId := []
  /-- PART_ASSIGN's new owner. -/
  owner : Option Bool := none
  /-- DUMP_GEN advances too: a life-cycle change (R131, R450). -/
  both : Bool := false
  /-- The dump is over or not to be taken; the mesh drains. -/
  draining : Bool := false
  deriving DecidableEq, Repr

/-- A dump in progress (R415 to R421). -/
structure Dump where
  slot : BitVec 2
  level : BitVec 3
  trigger : Code
  core : BitVec 10
  start : Word
  seq : BitVec 48
  /-- Records marked unreadable so far: index and STATUS. -/
  marks : List (Nat × Nat) := []
  deriving DecidableEq, Repr

/-- A partition (R17, R19, R130 to R132, R143, R203, R244). -/
structure Part where
  /-- PART_STATUS.STATE. -/
  state : BitVec 3 := 0
  dumpHeld : Bool := false
  /-- Device-wide numbers of the logical clusters, fixed at the partition reset (R15, R16). -/
  clusters : List Nat := []
  bar2Base : BitVec 10 := 0
  lastSeq : BitVec 48 := 0
  evt : EvtLog := {}
  capacity : MemCapacity := {}
  /-- The stack whose empty pool made the pending capacity step due (R129). -/
  pendingStack : Nat := 0
  gen : MemGen := {}
  /-- The pages of the running sweep that are written, as stack × 2^24 + page. -/
  sweep : Option (List Nat) := none
  /-- The dump area's sweep after an advance of DUMP_GEN. -/
  dumpSweep : Option (List Nat) := none
  /-- A generation advance waits for the sweep to end (R131). -/
  genWait : Bool := false
  /-- An advance of DUMP_GEN waits for the running sweep of the dump area (R132). -/
  dumpGenWait : Bool := false
  poisonLog : MemPoisonLog := {}
  sramCount : MemSramCount := {}
  windows : Vector MemWindow 8 := Vector.replicate 8 {}
  hostQs : Vector HostQ 16 := Vector.replicate 16 {}
  strmStatus : StrmStatus := {}
  strmPos : StrmPos := {}
  prepared : StrmPrepared := {}
  prep : Option StratumPrep := none
  tokens : Table PhaseToken := []
  strata : List (Nat × Stratum) := []
  stream : Option Stream := none
  /-- STREAM_STARTs that wait: SEQ and mailbox (R208). -/
  queue : List (BitVec 48 × MbId) := []
  hint : Option Hint := none
  energy : Energy := {}
  /-- The accounts at the running job's T_START. -/
  energyAt : Energy := {}
  /-- Final records, oldest first, at most 256 (R239). -/
  records : List EnergyRec := []
  kept : List KeptBarrier := []
  colStatus : ColStatus := {}
  colFail : ColFail := {}
  colMcast : Vector ColMcast 16 := Vector.replicate 16 {}
  rcv : PartRcv := {}
  /-- Final records of each stream no longer held (R239). -/
  lost : Table Nat := []
  reset : Option ResetReq := none
  /-- A reset of the partition overran its bound: it is held until a chip reset (R412). -/
  held : Bool := false
  dump : Option Dump := none
  deriving DecidableEq, Repr

end Sys2Proof.Machine
end

