-- ==== Sys2Proof/Machine/HostState.lean ====
section
/-! DEFINITION. The state behind the host interfaces: ports, mailboxes, journal; and requests to other
packages. -/

namespace Sys2Proof.Machine

/-- An MSI-X table entry (R181, R196): message address and data, and its mask bit. -/
structure MsixEntry where
  addr : Word := 0
  data : BitVec 32 := 0
  masked : Bool := true
  deriving DecidableEq, Repr

/-- A host access to a BAR that waits while the package sleeps (R380, R382). -/
inductive BarAccess where
  | read (offset width : Nat)
  | write (offset width value : Nat)
  | bar2Read (offset len : Nat)
  | bar2Write (offset : Nat) (bytes : List Byte) (ep : Bool)
  | post (mb : MbId)
  | free (mb : MbId)
  | evtHead (log : Option PartNo) (value : Word)
  | hqHead (part : PartNo) (slot : Fin 16) (value : BitVec 32)
  deriving DecidableEq, Repr

/-- A host access that a port holds: a BAR2 access to a partition in reset or behind earlier ones, a status write behind
earlier memory writes (R119, R185, R186). -/
inductive HeldAccess where
  | bar2Read (offset len : Nat)
  | bar2Write (offset : Nat) (bytes : List Byte) (ep : Bool)
  | post (mb : MbId)
  | free (mb : MbId)
  deriving DecidableEq, Repr

/-- Whether an access is through BAR2. -/
def HeldAccess.bar2 : HeldAccess → Bool
  | .bar2Read _ _ => true
  | .bar2Write _ _ _ => true
  | _ => false

/-- A PCI Express port's function (R178, R180, R196, R202). -/
structure HostPort where
  up : Bool := false
  /-- Size of BAR2 in GiB, and the MSI-X gates of configuration space (R178, R179, R196). -/
  bar2Gib : Nat := 64
  busMaster : Bool := false
  msixEnable : Bool := false
  msixMask : Bool := false
  msix : Table MsixEntry := []
  pba : BitVec 256 := 0
  violation : PortViolation := {}
  /-- Accesses that the port holds, oldest first. -/
  held : List HeldAccess := []
  /-- Accesses that came while the package slept, oldest first. -/
  resting : List BarAccess := []
  deriving DecidableEq, Repr

/-- A mailbox (R190). -/
structure Mailbox where
  cmd : BitVec 512 := 0
  resp : BitVec 512 := 0
  status : MbStatus := {}
  seq : BitVec 48 := 0
  /-- The port that posted the command. -/
  port : Bool := false
  deriving DecidableEq, Repr

/-- A journal entry (R201). -/
structure JEntry where
  seq : BitVec 48 := 0
  mailbox : BitVec 6 := 0
  part : BitVec 2 := 0
  chip : Bool := false
  port : Bool := false
  state : BitVec 3 := 0
  opcode : BitVec 16 := 0
  result : Code := 0
  tag : BitVec 32 := 0
  tAccepted : Word := 0
  tStarted : Word := 0
  tEnded : Word := 0
  detail : Word := 0
  deriving DecidableEq, Repr

/-- A unit's request to another package or partition that holds a reply slot (R294). -/
inductive ReplyUse where
  /-- A PUT or RADD: its core, where it was issued, its address operand, its place in program order. -/
  | put (core : Fin 1024) (pc addr order : Word)
  | dmaWrite (cluster : Fin 32) (ch : Fin 16) (seq : Nat)
  | dmaRead (cluster : Fin 32) (ch : Fin 16) (seq : Nat)
  /-- A request of the CP for a stream operation; no operation of the spec sends one. -/
  | cp (op : Nat)
  /-- One of the 8 slots that an MWRITE reserves, from `base` on, which no target answers. -/
  | reserved (base : Nat)
  deriving DecidableEq, Repr

/-- A write that may still be under way (R94): a request on the mesh, or a reply slot with its generation. -/
inductive WriteRef where
  | mesh (r : MeshReq)
  | reply (key : Nat) (gen : BitVec 4)
  deriving DecidableEq, Repr

/-- A reply slot: its generation and the request that holds it (R277, R294). -/
structure ReplySlot where
  gen : BitVec 4 := 0
  use : Option ReplyUse := none
  deriving DecidableEq, Repr

/-- Whether an answer frees the slot (R294). -/
def ReplySlot.awaits (x : ReplySlot) : Bool :=
  match x.use with
  | none => false
  | some (.reserved _) => false
  | some _ => true

/-- The host side of the package (R178 to R207). -/
structure HostSide where
  ports : Vector HostPort 2 := Vector.replicate 2 {}
  /-- PART_OWNER, CHIP_OWNER and LAYOUT of CHIP_HOST (R187, R202). -/
  partOwner : BitVec 4 := 0
  chipOwner : Bool := false
  layout : BitVec 3 := 7
  /-- Mailboxes: partition p's n at 64p + n, the chip's n at 256 + n. -/
  mailboxes : Table Mailbox := []
  /-- MB_STATUS.SERVICE of the package: 0 normal, 1 switch-over, 2 activation (R190, R193). -/
  service : BitVec 2 := 0
  journal : Table JEntry := []
  lastSeq : BitVec 48 := 0
  chipEvt : EvtLog := {}
  bootId : BitVec 32 := 0
  chipResets : BitVec 16 := 0
  /-- A CHIP_OWNER_SET whose mailbox is not freed yet: the mailbox and the new owner (R187). -/
  ownerMove : Option (Nat × Bool) := none
  /-- A LAYOUT_SET in progress: its mailbox, the layout code, partitions that have drained, and whether the
  full fill runs (R135, R396). -/
  layoutMove : Option (MbId × BitVec 3 × BitVec 4 × Bool) := none
  /-- Bytes of the latest completed host read, with the EP bit of each completion (R182, R184). -/
  readOut : List (List Byte × Bool) := []
  /-- MSI-X messages sent: port and vector, oldest first. -/
  msixSent : List (Bool × BitVec 8) := []
  deriving DecidableEq, Repr

end Sys2Proof.Machine
end

