-- ==== Sys2Proof/Machine/FabState.lean ====
section
/-! DEFINITION. The state of the fabric switch and the fabric ports. -/

namespace Sys2Proof.Machine

/-- A rate limiter (R302): its destination, rate, and whether a decrease is barred by DEC_GAP. -/
structure Limiter where
  dest : DeviceNo
  rate : Nat := 64
  /-- Rack time of the latest decrease and of the latest echo. -/
  lastDec : Option Word := none
  lastEcho : Word := 0
  deriving DecidableEq, Repr

/-- What a peer's HOP_CREDIT said of one of its pools (R280): SIZE, FREED, packets sent to it. -/
structure PoolCredit where
  known : Bool := false
  size : BitVec 8 := 0
  freed : BitVec 16 := 0
  sent : BitVec 16 := 0
  deriving DecidableEq, Repr

/-- A link cell (R261). -/
inductive LinkCell where
  | idle
  | nak (lseq : BitVec 12)
  | ident (id : Ident)
  | laneSwap (lane : Fin 5)
  | swapAck (lane : Fin 5) (count : BitVec 32)
  | down (reason : BitVec 8)
  deriving DecidableEq, Repr

/-- What a port puts on its lanes (R260, R261): a link cell, or a numbered cell. -/
inductive Wire where
  | link (c : LinkCell)
  | cell (lseq : BitVec 12) (c : Cell)
  deriving DecidableEq, Repr

/-- A cell in a retry buffer (R262): its number, its packet, and whether it is the packet's last cell. -/
structure SentCell where
  lseq : BitVec 12
  cell : Cell
  pkt : Pkt
  last : Bool
  deriving DecidableEq, Repr

/-- The fields of a training record (R255). -/
structure TrainRec where
  peerTag : BitVec 32
  peerDevice : DeviceNo
  peerRole : BitVec 5
  peerKind : BitVec 2
  settings : BitVec 640
  txSpare : BitVec 3
  rxSpare : BitVec 3
  deriving DecidableEq, Repr

/-- The buffer of a failed port, with the twin that is to take it (R267, R268). -/
inductive HandState where
  | none
  /-- Frozen; the peer's handover report is awaited. -/
  | waiting (twin : Fin 20)
  /-- The cells that the twin is still to take. -/
  | handing (twin : Fin 20) (cells : List SentCell)
  deriving DecidableEq, Repr

/-- A lane's recent corrections: rack time and symbols (R263, R273). -/
abbrev LaneHistory := List (Word × Nat)

/-- A fabric port (R246 to R273). -/
structure Link where
  ctrl : FpCtrl := {}
  /-- FULL_TRAIN was written since the last training (R255). -/
  fullTrain : Bool := false
  status : FpStatus := {}
  peer : FpPeer := {}
  expect : FpExpect := {}
  err : FpErr := {}
  retry : FpRetry := {}
  lanes : Vector FpLane 5 := Vector.replicate 5 {}
  history : List LaneHistory := []
  /-- The 128 bytes of the record in tray flash, and the retired receive and transmit lanes that its lane settings tell (R255,
  R263; log 91). -/
  record : BitVec 1024 := 0
  keptRx : BitVec 3 := 7
  keptTx : BitVec 3 := 7
  /-- A full training is under way, after which the record is written (R255). -/
  writeRec : Bool := false
  settings : BitVec 640 := 0
  /-- The acceptance test has passed: link cells run (R253, step 3). -/
  accepted : Bool := false
  /-- A flip has released the port since it reached UP (R270). -/
  released : Bool := false
  ident : Option Ident := none
  /-- The retry buffer, oldest first. -/
  buffer : List SentCell := []
  /-- Replays since ACK last advanced (R265). -/
  replaysNow : Nat := 0
  /-- LSEQ expected next, whether the running discards were answered by NAK, cells accepted since the last
  ACK sent (R262). -/
  expectLseq : BitVec 12 := 0
  /-- LSEQ of the last cell received in order (R260). -/
  lastRx : Option (BitVec 12) := none
  nakSent : Bool := false
  toAck : Nat := 0
  /-- Cells of a packet that is not complete; the last LSEQ delivered (R266, R275). -/
  partialRx : List Cell := []
  delivered : Option (BitVec 12) := none
  /-- HOP_CREDIT packets that wait at the port (R280). -/
  arrived : List Pkt := []
  /-- A receive lane's swap: the lane, and the codeword count once it is acknowledged (R263). -/
  rxSwap : Option (Fin 5 × Option (BitVec 32)) := none
  /-- A transmit lane's swap (R263). -/
  txSwap : Option (Fin 5 × BitVec 32) := none
  hand : HandState := .none
  /-- Cells of each class sent since the classes' shares were last even (R278). -/
  share : Vector Nat 4 := Vector.replicate 4 0
  deriving DecidableEq, Repr

/-- Port `n` as a whole-package reset leaves it: what tray flash holds of it stays (R255, R273). -/
def Link.reset (n : Nat) (x : Link) : Link :=
  { record := x.record, keptRx := x.keptRx, keptTx := x.keptTx, status := { role := BitVec.ofNat 5 n } }

/-- The fabric switch (R274 to R309). -/
structure Fab where
  epoch : FabEpoch := {}
  ring : FabRing := {}
  arb : FabArb := {}
  congCfg : FabCongCfg := {}
  echoes : BitVec 32 := 0
  drop : FabDrop := {}
  probeCtrl : FabProbeCtrl := {}
  probeResult : FabProbeResult := {}
  /-- FAB_EPOCH_CNT, n = 4e + c. -/
  counts : Vector FabEpochCnt 8 := Vector.replicate 8 {}
  /-- PORT of the route entries that are not unreachable, 0x1F: bank × 16,384 + device (R282). -/
  routes : Table (BitVec 5) := []
  linkConfig : FabLinkConfig := {}
  links : Vector Link 20 := Vector.ofFn fun n => Link.reset n.val {}
  /-- Packets in receive pools: (port × 3 + pool) × 4 + class, oldest first, and whether the pool was at its
  marking level when the packet arrived (R279, R300). -/
  pools : Table (List (Pkt × Bool)) := []
  /-- Slots freed since the port went UP, by the same key (R280). -/
  freed : Table (BitVec 16) := []
  /-- The peers' pools, by the same key. -/
  credits : Table PoolCredit := []
  /-- Packets waiting at the local interfaces to enter the fabric (R284). -/
  inject : List Pkt := []
  /-- Packets that reached a local interface, and transfers inside the package in the same form (R290). -/
  deliver : List Pkt := []
  limiters : List Limiter := []
  /-- Bin and mark counts, and the latest snapshot: (port × 4 + class) × 9 + bin, bin 8 marks (R306). -/
  hist : Table (BitVec 32) := []
  snapshot : Table (BitVec 32) := []
  /-- Rack time of the latest snapshot. -/
  snapshotAt : Option Word := none
  /-- Rack time at which the outstanding probe was sent (R307). -/
  probeSent : Option Word := none
  /-- The latest DOWN_CODE of any port (R386). -/
  lastDown : Code := 0
  /-- The CP's receive ring of BARRIER packets, oldest first, at most 4,096 (R290). -/
  cpRing : List Pkt := []
  /-- The cells that the ports have put on their lanes, oldest first. -/
  wire : List (Fin 20 × BitVec 640) := []
  deriving DecidableEq, Repr

end Sys2Proof.Machine
end

