-- ==== Sys2Proof/Machine/FuseState.lean ====
section
/-! DEFINITION. What outlives power: the package's fuses (R343, R389, R400, R439, R445, R448, R454) and
tray flash (R436). -/

namespace Sys2Proof.Machine

/-- The typical VMIN of the 16 steps in mV (R343). -/
def typicalVmin : List (BitVec 10) := [570, 590, 610, 630, 655, 680, 705, 720, 735, 750, 765, 780, 795, 810, 830, 850]

/-- The fuses. A part's own values are the model's (log 4). -/
structure Fuses where
  /-- The secret S, the identity public key, SERIAL_TAG and the licence binding that follow from them
  (R445). -/
  secret : BitVec 256 := 0
  publicKey : BitVec 256 := 0
  serialTag : BitVec 32 := 0
  binding : BitVec 256 := 0
  keyEngine : Bool := true
  /-- Caerven's image, licence and service keys (R439, R446). -/
  caerven : Vector (BitVec 256) 3 := Vector.replicate 3 0
  /-- Owner keys by fuse slot, the slot in use, slots used (R439, R449). -/
  ownerKeys : Vector (BitVec 256) 4 := Vector.replicate 4 0
  ownerSlot : BitVec 2 := 0
  ownerSlotsUsed : BitVec 3 := 1
  ownerRevoked : BitVec 4 := 0
  lifecycle : BitVec 3 := 2
  svn : BitVec 6 := 0
  limitSet : BitVec 2 := 0
  vmin : List (BitVec 10) := typicalVmin
  /-- Worst-case thermal resistance in µK/W (R360, R465). -/
  rTh : BitVec 16 := 0x55F0
  /-- The factory defect map (R389): retired clusters, bad slots, bad page groups by stack. -/
  retired : BitVec 32 := 0
  badSlots : Vector (BitVec 36) 32 := Vector.replicate 32 0
  pageGroups : List (Nat × Nat) := []
  stepping : BitVec 4 := 0
  mac : BitVec 48 := 0
  deriving DecidableEq, Repr

/-- P_MAX of the fused limit set (R400). -/
def Fuses.pMax (f : Fuses) : Nat := if f.limitSet = 1 then 1400 else if f.limitSet = 2 then 1800 else 2400

/-- MAX_STEP of the fused limit set (R400). -/
def Fuses.maxStep (f : Fuses) : Nat := if f.limitSet = 1 then 4 else if f.limitSet = 2 then 6 else 15

/-- A boot control record (R455), CHECK good. -/
structure BootRec where
  active : Bool := false
  trial : Bool := false
  trialStarts : BitVec 2 := 0
  trialSeconds : BitVec 32 := 0
  oldFormat : BitVec 16 := 0
  writes : BitVec 16 := 0
  deriving DecidableEq, Repr

/-- An image slot (R453, R457): the header's 256 bytes, the body's bytes, the parts of it written so far. -/
structure Image where
  header : BitVec 2048
  body : Mem := []
  got : List (Nat × Nat) := []
  deriving DecidableEq, Repr

/-- A field of an image header (R453). -/
def Image.field (i : Image) (off lo width : Nat) : Nat := bitsAt i.header.toNat (8 * off + lo) width

/-- A controller key record (R439): roles RACK, FABRIC, SERVICE in bits 0 to 2, and the owner key whose signature it carries. -/
structure KeyRec where
  roles : BitVec 3
  key : BitVec 256
  signedBy : BitVec 256 := 0
  deriving DecidableEq, Repr

/-- An entry of the field defect log (R390), as its 12 bytes before CHECK, and whether CHECK is good. -/
structure DefectEntry where
  kind : BitVec 4
  cause : BitVec 4
  field : BitVec 2 := 0
  cluster : BitVec 3 := 0
  slot : BitVec 6 := 0
  stack : BitVec 4 := 0
  value : BitVec 32 := 0
  time : BitVec 32 := 0
  checkOk : Bool := true
  deriving DecidableEq, Repr

/-- Bytes 0x00 to 0x0B of an entry (R390). -/
def DefectEntry.word (e : DefectEntry) : BitVec 96 :=
  packFields [(0, 4, e.kind.toNat), (4, 4, e.cause.toNat), (8, 2, e.field.toNat), (10, 3, e.cluster.toNat),
    (13, 6, e.slot.toNat), (19, 4, e.stack.toNat), (32, 32, e.value.toNat), (64, 32, e.time.toNat)]

/-- The header of the image that slot 0 holds at first: version 1.0, SVN 0, every limit set, a body of one
byte (log 5). -/
def firstImage : Image :=
  { header := packFields [(0, 32, 0x4F4C4855), (32, 8, 1), (64, 16, 1), (128, 32, 1), (160, 16, 1), (192, 3, 7)],
    got := [(0, 1)] }

/-- The settings records of tray flash but the ports' training records (R436, R255). -/
structure Settings where
  /-- The VMIN table and G of the latest trim, HOURS_SINCE_TRIM (R354). -/
  vmin : Option (List (BitVec 10)) := none
  guard : BitVec 6 := 45
  hours : BitVec 8 := 0
  /-- THM_CYCLES by field × 5 + bin (R364). -/
  cycles : Table (BitVec 32) := []
  /-- Layout code and interleave mode (R396). -/
  layout : Option (BitVec 3 × Bool) := none
  /-- The accepted counter of each key slot (R439). -/
  counters : Vector Word 8 := Vector.replicate 8 0
  /-- Stacks whose saved training settings are valid (R385). -/
  trainedStacks : BitVec 12 := 0
  deriving DecidableEq, Repr

/-- Tray flash (R436). Training records stand in the ports (R255). -/
structure Flash where
  boot : Vector (Option BootRec) 2 := #v[some {}, none]
  slots : Vector (Option Image) 2 := #v[some firstImage, none]
  /-- The key of the stored device certificate (R446). -/
  certKey : BitVec 256 := 0
  keys : Vector (Option KeyRec) 3 := Vector.replicate 3 none
  /-- Licences, as their 160 bytes (R451). -/
  licences : Vector (Option (BitVec 1280)) 16 := Vector.replicate 16 none
  /-- The copies of the settings, each with its format, the latest written first (R461). -/
  copies : List (BitVec 16 × Settings) := [(1, {})]
  defects : List DefectEntry := []
  deriving DecidableEq, Repr

end Sys2Proof.Machine
end

