-- ==== Sys2Proof/Machine/PowerState.lean ====
section
/-! DEFINITION. The state of the power and thermal controller, of the safety chains' thermal side, and of
the VDD_CORE regulator as the device sees it (R333 to R368). -/

namespace Sys2Proof.Machine

/-- A step of voltage and frequency in progress (R346): its direction, the step it leads to, and whether
the VR request was repeated. -/
structure VfMove where
  up : Bool
  goal : BitVec 4
  repeated : Bool := false
  deriving DecidableEq, Repr

/-- Cycle counting of a field (R364): the latest turning point, the extreme since, the direction, and the
bins that hold an odd half-cycle. -/
structure CycleTrack where
  turn : Option Int := none
  ext : Int := 0
  rising : Option Bool := none
  odd : BitVec 5 := 0
  deriving DecidableEq, Repr

/-- The table of PWR_VF registers for a VMIN table, a guard band and a hint margin (R343, R344). -/
def vfTable (vmin : List (BitVec 10)) (guard margin : Nat) : Vector PwrVf 16 :=
  Vector.ofFn fun s =>
    let v := (vmin.getD s.val 0).toNat
    { freqMhz := BitVec.ofNat 12 ([800, 900, 1000, 1100, 1200, 1300, 1400, 1450, 1500, 1550, 1600, 1650, 1700, 1750, 1800, 1850].getD s.val 0),
      vminMv := BitVec.ofNat 10 v, vreqMv := BitVec.ofNat 10 (max 600 (min 900 (v + guard + margin))) }

/-- A cap or setting that waits for the end of a stall (R365). -/
inductive PwrSetting where
  | caps (rack tray brakeW : Option (BitVec 12)) (brakeLevel orphanPct : Option (BitVec 7))
  | config (fixedEn : Option Bool) (fixedStep : Option (BitVec 4)) (boostEn : Option Bool) (hintMargin : Option (BitVec 5))
      (droopMv : Option (BitVec 6)) (stallLevel : Option (BitVec 7))
  | orphan (on : Bool)
  deriving DecidableEq, Repr

/-- The power controller and what it senses. -/
structure Power where
  status : PwrStatus := {}
  limits : PwrLimits := {}
  config : PwrConfig := {}
  estimate : PwrEstimate := {}
  guard : PwrGuard := {}
  thm : ThmStatus := {}
  headroom : ThmHeadroom := {}
  safety : Vector ThmSafety 4 := Vector.replicate 4 {}
  /-- THM_CYCLES by field × 5 + bin. -/
  cycles : Table (BitVec 32) := []
  vf : Vector PwrVf 16 := vfTable typicalVmin 45 0
  clu : Vector CluPower 32 := Vector.replicate 32 {}
  /-- The latest window's activity with the levels, ACLK in MHz and voltage it had; the estimates of the
  running millisecond: their sum in picojoules and their number (R336, R337). -/
  act : Activity := {}
  actLevels : Vector (BitVec 7) 32 := Vector.replicate 32 64
  actFreq : Nat := 800
  actVolt : Nat := 800
  estSum : Nat := 0
  estCount : Nat := 0
  /-- The VMIN table in use (R352). -/
  vmin : List (BitVec 10) := typicalVmin
  move : Option VfMove := none
  /-- P_eff changed during a step, so the slow loop runs at its end (R366). -/
  redo : Bool := false
  /-- The rack cap that R334 uses: in orphan mode the one received before it (R334, R443). -/
  rackForce : BitVec 12 := 0x898
  /-- Power of the other rails since the last calibration, in 0.25 W (R337). -/
  rails : Option Nat := none
  /-- Caps and settings that wait for the end of a stall, oldest first (R365). -/
  settings : List PwrSetting := []
  /-- ACLK in MHz, and the voltage last requested in mV (R346, R471). -/
  freq : BitVec 12 := 800
  volt : BitVec 10 := 800
  /-- The controller stalls (R365), and clusters forced to level 1 meanwhile. -/
  stalled : Bool := false
  stallHot : BitVec 32 := 0
  /-- V_req is to be requested once the stall ends (R344, R365). -/
  voltDue : Bool := false
  /-- Fixed mode yields, since a cause last seen at this time; FIXED_HELD may still be set (R349). -/
  yielding : Bool := false
  yieldAt : Word := 0
  fixedArmed : Bool := false
  /-- Since when L_POWER is 1 and the estimate is at or below P_eff; since when each cluster's thermal
  level is 1 and below 32 (R335, R345, R349). -/
  lpOneSince : Option Word := none
  underSince : Option Word := none
  thmOneSince : Vector (Option Word) 32 := Vector.replicate 32 none
  thmLowSince : Vector (Option Word) 32 := Vector.replicate 32 none
  /-- TARGET is held below what P_eff alone allows by the thermal rules (R483). -/
  thermalHold : Bool := false
  /-- Latest reports of 0x0503 and 0x0505 (R335, R362). -/
  capReport : Option Word := none
  brakeReport : Option Word := none
  /-- The latest reading of each junction sensor, at cluster × 8 + sensor (R356). -/
  sensors : Table Temp := []
  /-- Bandwidth fraction of each stack in 1/640 of full rate (R359). -/
  bw : Vector Nat 12 := Vector.replicate 12 640
  /-- Recognised levels of PWR_BRAKE and COOL_ALERT, and stacks at 105 °C (R359, R362). -/
  brakePin : Bool := false
  coolPin : Bool := false
  hotStacks : BitVec 12 := 0
  track : Vector CycleTrack 4 := Vector.replicate 4 {}
  /-- Seconds in PS0 to PS2 since bedrock power-up, and seconds of operation towards the next hour
  (R352, R360). -/
  psSeconds : Nat := 0
  hourSeconds : Nat := 0
  /-- A running trim, true for the validation trim; the validation trim has passed (R352, R353). -/
  trim : Option Bool := none
  validated : Bool := false
  /-- Droops in the latest 24 hours: time and cluster (R354). -/
  droops : List (Word × Fin 32) := []
  /-- Clusters whose ACLK is stretched (R351). -/
  stretched : BitVec 32 := 0
  /-- The safety monitor has gated ACLK (R363); CORE_EN is due to fall (R472). -/
  gated : Bool := false
  deriving DecidableEq, Repr

end Sys2Proof.Machine
end

