-- ==== Sys2Proof/Machine/SystemState.lean ====
section
/-! DEFINITION. The state of clocks and power states (R369 to R384), bring-up (R385 to R402), recovery
(R403 to R433), and the management port (R434 to R464), and the lands of R469. -/

namespace Sys2Proof.Machine

/-- The package's power state (R375, R379). -/
inductive PkgState where
  /-- PS0 to PS2. -/
  | run
  | ps3
  | ps4
  /-- Rails requested again; PS3 or PS4 (R382). -/
  | waking (fromPs4 : Bool)
  deriving DecidableEq, Repr

/-- Clocks, rack time, power states (R372, R373, R384). RT_TIME itself is `State.time`. -/
structure Clocks where
  clk : ClkStatus := {}
  load : Word := 0
  ctrl : RtCtrl := {}
  rt : RtStatus := {}
  /-- The next reference edge's place in the pattern 6, 7, 6, 7, 6, and the error still to absorb. -/
  edge : Fin 5 := 0
  absorb : Nat := 0
  /-- The bedrock clock has been trimmed against the reference, and keeps that trim (R371). -/
  trimmed : Bool := false
  psConfig : PsConfig := {}
  ps : PsStatus := {}
  wake : WakeConfig := {}
  pkg : PkgState := .run
  deriving DecidableEq, Repr

/-- A cairn record but for CHECK (R387). -/
structure Cairn where
  stage : BitVec 4 := 0
  startKind : BitVec 4 := 0
  outcome : BitVec 3 := 0
  status : Code := 0
  durationUs : BitVec 32 := 0
  tEnd : Word := 0
  detail : BitVec 32 := 0
  tested : BitVec 16 := 0
  good : BitVec 16 := 0
  mappedOut : BitVec 16 := 0
  disagree : BitVec 16 := 0
  deriving DecidableEq, Repr

/-- Bring-up (R385 to R402). -/
structure Boot where
  status : BootStatus := {}
  config : BootConfig := {}
  defects : DefectSummary := {}
  maps : Vector CluMap 32 := Vector.replicate 32 {}
  /-- The bedrock copy of the core maps: the physical slot of each logical index (R393). -/
  coreMaps : Vector (List (BitVec 6)) 32 := Vector.replicate 32 []
  cairn : Vector Cairn 10 := Vector.replicate 10 {}
  previous : Vector Cairn 10 := Vector.replicate 10 {}
  /-- A start runs, and its stage began then. -/
  starting : Bool := false
  stageAt : Word := 0
  /-- The first failing try of S3, and whether a temperature retry occurred (R386). -/
  s3Since : Option Word := none
  s3Hot : Bool := false
  /-- The flash was granted at S1; a slot passed. -/
  granted : Bool := false
  booted : Bool := false
  /-- The fuse shadow of the bedrock domain (R374). -/
  shadow : Option Fuses := none
  /-- Slots found bad at S2 and since, clusters that failed (R391, R392, R395). -/
  bad : Vector (BitVec 36) 32 := Vector.replicate 32 0
  badClusters : BitVec 32 := 0
  /-- Stacks that need a full fill (R135). -/
  needFill : BitVec 12 := 0
  /-- The CHIP_RESET whose mailbox is restored when the start ends, and the style performed (R193, R397). -/
  resetMb : Option (MbId × Mailbox) := none
  /-- The management RESET message to answer when the start ends (R437). -/
  resetMsg : Option (Bool × BitVec 32 × BitVec 64) := none
  /-- The layout was forced to code 7 (R396). -/
  forced : Bool := false
  /-- 0x0605 is logged with cause 1 once the start ends (R455). -/
  revertDue : Bool := false
  /-- A start that waits: PKG_RESET_N is held, or the power-up runs (R476, R481). -/
  startDue : Bool := false
  deriving DecidableEq, Repr

/-- The lands of R469 that carry a level of their own. -/
structure Lands where
  bedrockPg : Bool := false
  railEn : Bool := false
  coreEn : Bool := false
  pwrGood : Bool := false
  pkgResetN : Bool := true
  flashReqN : Bool := true
  flashGntN : Bool := true
  /-- PKG_ALERT_N is held low from a rail loss until S9 of the start that follows it (R476). -/
  lossAlert : Bool := false
  /-- JTAG: the instruction in force, and the identification it shifts out (R435). -/
  jtag : JtagOp := .idcode
  jtagOut : BitVec 32 := 0
  deriving DecidableEq, Repr

/-- A chip reset that waits for its dumps (R407, R415). -/
structure ChipReq where
  whole : Bool
  mb : Option MbId
  /-- The management RESET message that asked for it: I3C, TAG, COUNTER. -/
  msg : Option (Bool × BitVec 32 × BitVec 64)
  /-- Partitions whose dumps have ended. -/
  dumped : BitVec 4 := 0
  deriving DecidableEq, Repr

/-- Recovery (R403 to R433). -/
structure Recovery where
  config : RcvConfig := {}
  status : RcvStatus := {}
  cp : CpStatus := {}
  safe : SafeStatus := {}
  /-- When the running switch-over gap began (R425). -/
  gapAt : Option Word := none
  /-- When CP-B's latest passed self-test ended; CPB_TEST_AGE_S counts from it (R432). -/
  cpbPassAt : Option Word := none
  /-- CP-B's latest self-test failed: no switch-over (R422, R430). -/
  cpbFailed : Bool := false
  /-- Times of the switch-overs within the latest 24 hours (R428). -/
  recent : List Word := []
  chip : Option ChipReq := none
  /-- Rail losses within the latest 10 minutes; the fault log of them (R473). -/
  railLosses : List Word := []
  restartDue : Bool := false
  faultLog : List (Word × Code × BitVec 32) := []
  /-- Bit p: what the retention area held of partition p is lost (R404). -/
  retentionLost : BitVec 4 := 0
  /-- The chains that failed their latest self-check, by electrical monitor: overcurrent, core overvoltage, then each rail's
  overvoltage (R429). -/
  elecFaults : Vector (BitVec 3) 13 := Vector.replicate 13 0
  /-- Clusters that did not answer the latest poll, by device-wide number (R405). -/
  silent : BitVec 32 := 0
  /-- A power cycle was requested of tray firmware (R407). -/
  powerCycle : Bool := false
  deriving DecidableEq, Repr

/-- A response of the management port (R437): the interface, TYPE, TAG, COUNTER, STATUS, and its body as
words. -/
structure Response where
  i3c : Bool
  type : BitVec 16
  tag : BitVec 32
  counter : BitVec 64
  status : Code
  body : List Word := []
  deriving DecidableEq, Repr

/-- A running activation (R459, R462): the slot, the mailbox or message that asked, and the cause of a
revert. -/
structure Activation where
  slot : Bool
  mb : Option MbId
  msg : Option (Bool × BitVec 32 × BitVec 64)
  revert : Option (BitVec 2)
  start : Word
  deriving DecidableEq, Repr

/-- An SPDM connection (R447): how far it has come: 1 version, 2 capabilities, 3 algorithms. -/
structure SpdmConn where
  path : SpdmPath
  level : Fin 4
  deriving DecidableEq, Repr

/-- An SPDM response (R447). -/
inductive SpdmResp where
  | version | capabilities | algorithms
  | digests (chain : BitVec 512)
  | certificate (key : BitVec 256)
  | challengeAuth (nonce : BitVec 256)
  | measurements (blocks : List (Nat × BitVec 512)) (nonce : BitVec 256)
  | error (code : BitVec 8)
  deriving DecidableEq, Repr

/-- An open image transfer (R457): the key slot and interface of its IMAGE_BEGIN. -/
structure Transfer where
  key : BitVec 3
  i3c : Bool
  deriving DecidableEq, Repr

/-- A management message whose effect firmware makes, received and waiting for firmware (R437, R438). -/
inductive HeldMsg where
  | coordSet (h : MgmtHdr) (device : DeviceNo)
  | ownerSet (h : MgmtHdr) (part : PartNo) (owner chip : Bool)
  | portSet (h : MgmtHdr) (port : BitVec 5) (expect : Word) (fullTrain : Bool)
  | standIn (h : MgmtHdr) (port role : BitVec 5)
  | retrain (h : MgmtHdr) (port : BitVec 5) (fullTrain : Bool)
  | imageBegin (h : MgmtHdr) (header : BitVec 2048)
  | imageData (h : MgmtHdr) (offset : BitVec 32) (bytes : List Byte)
  | imageEnd (h : MgmtHdr) (sigOk hashOk : Bool)
  | activate (h : MgmtHdr) (slot : Bool)
  | licence (h : MgmtHdr) (bytes : List Byte) (sigOk : Bool)
  | lifecycle (h : MgmtHdr) (target : BitVec 3) (ownerKey : BitVec 256)
  | keySet (h : MgmtHdr) (slot : BitVec 2) (roles : BitVec 3) (key : BitVec 256)
  | defectEdit (h : MgmtHdr) (entry : BitVec 96)
  | debugUnlock (h : MgmtHdr)
  deriving DecidableEq, Repr

/-- The management port, security and firmware (R434 to R464). -/
structure Mgmt where
  status : MgmtStatus := {}
  sec : SecStatus := {}
  fw : FwVersion := {}
  trial : TrialStatus := {}
  /-- The last accepted COUNTER of each key slot. -/
  counters : Vector Word 8 := Vector.replicate 8 0
  measurements : Vector (BitVec 512) 7 := Vector.replicate 7 0
  /-- SETTINGS_FORMAT of the running image, and the slot that CP-B's retained image came from. -/
  format : BitVec 16 := 0
  cpbSlot : Bool := false
  transfer : Option Transfer := none
  /-- The slot whose image is staged (R457). -/
  staged : Option Bool := none
  activation : Option Activation := none
  /-- An activation that a switch-over cut off, until the gap ends (R193, R462). -/
  dropped : Option Activation := none
  /-- Seconds since the activation or the latest switch-over of the trial, seconds without a stall, switch-overs
  within the trial (R460, R462). -/
  trialClear : Nat := 0
  noStall : Nat := 0
  trialSwitches : Nat := 0
  /-- The dynamic I3C address (R434). -/
  dynAddr : BitVec 7 := 0
  /-- A life-cycle change in progress: the target, the message to answer, partitions still to reset, the owner key (R450). -/
  change : Option (BitVec 3 × (Bool × BitVec 32 × BitVec 64) × BitVec 4 × BitVec 256) := none
  /-- A probe whose result a message awaits (R440). -/
  probe : Option (Bool × BitVec 32 × BitVec 64) := none
  responses : List Response := []
  /-- In-band interrupts raised on I3C, one for each chip event (R434). -/
  ibis : Nat := 0
  /-- Messages received that wait for firmware, and SPDM requests that do, in the order received (R437, R438, R447; log 67). -/
  held : List HeldMsg := []
  spdmHeld : List (SpdmPath × SpdmReq) := []
  spdm : List SpdmConn := []
  spdmSent : List (SpdmPath × SpdmResp) := []
  deriving DecidableEq, Repr

end Sys2Proof.Machine
end

