-- ==== Sys2Proof/Machine/State.lean ====
section
/-! DEFINITION. The machine's state, its reset, faults and refusals. -/

namespace Sys2Proof.Machine

/-- The faults of the block. There are none: every event that the manual names leads to a next state, and a command whose trigger
does not hold leaves the state as it is (log 1). Safe: no command stops the machine. -/
inductive Fault where
  deriving DecidableEq, Repr

/-- The refusals of the block. -/
inductive Refusal where
  /-- Raised by the dispatch for a command without a meaning. Safe: the machine stops. -/
  | notModelled (mnemonic : String)
  deriving DecidableEq, Repr

/-- The state of the package. -/
structure State where
  /-- The commands that wait, first in first out. -/
  pending : List Instr := []
  /-- The number of free values used so far; the model's own (log 8). -/
  freeCtr : Nat := 0
  /-- Rack time in nanoseconds, RT_TIME (R372). -/
  time : Word := 0
  /-- The package's device number, once it is known (R257, R441). -/
  device : Option DeviceNo := none
  parts : Vector Part 4 := Vector.replicate 4 {}
  /-- Cores, at partition × 1024 + logical core. -/
  cores : Table Core := []
  clus : Vector Clu 32 := Vector.replicate 32 {}
  /-- Scratchpads at core key × 2^21, cluster memories at 2^33 + cluster × 2^24 (R79, R92). -/
  sram : Mem := []
  /-- Poisoned lines of both, by address / 64 (R137). -/
  sramPoison : List Nat := []
  /-- Inbound sides and outbound bindings, at core key × 8 + queue (R144). -/
  qins : Table QIn := []
  qouts : Table QOut := []
  dma : Vector DmaEng 32 := Vector.replicate 32 {}
  memConfig : MemConfig := {}
  hbm : Stacks := {}
  /-- Write and RADD requests on the mesh, oldest first. -/
  mesh : List MeshReq := []
  /-- Packets of queue words whose sender had writes to the same core's scratchpad under way, and those writes
  (R94). -/
  wordAfter : List (Pkt × List WriteRef) := []
  /-- Queue words on their way to an inbound side: the packet and the words still to arrive (R151). -/
  words : List (Pkt × List Nat) := []
  /-- Reply slots, at (partition × 4096 + unit) × 4096 + slot (R294). -/
  reply : Table ReplySlot := []
  fab : Fab := {}
  /-- Features granted at the latest start, and pending (R399). -/
  licence : LicenceState := {}
  host : HostSide := {}
  power : Power := {}
  clocks : Clocks := {}
  boot : Boot := {}
  lands : Lands := {}
  rcv : Recovery := {}
  mgmt : Mgmt := { sec := { lifecycle := 2, ownerSlotsUsed := 1 } }
  fuses : Fuses := {}
  flash : Flash := {}
  deriving DecidableEq, Repr

/-- The machine right after reset. -/
def State.reset : State := {}

end Sys2Proof.Machine
end

