-- ==== Sys2Proof/Machine/Ops.lean ====
section
/-! DEFINITION. The named operations over the state: units, events and interrupts, core-local memory,
faults of a core and the issue of an instruction. -/

namespace Sys2Proof.Machine

/-- What every command answers: a next state. -/
abbrev Out := Host.Outcome State Fault Refusal

/-- The codes that the device returns or logs (R200). -/
def statusCodes : List Code := [
  0x0000, 0x0001, 0x0010, 0x0101, 0x0102, 0x0103, 0x0104, 0x0105, 0x0106, 0x0107, 0x0108, 0x0109, 0x0110, 0x0111,
  0x0112, 0x0113, 0x0120, 0x0121, 0x0122, 0x0123, 0x0124, 0x0201, 0x0202, 0x0203, 0x0204, 0x0205, 0x0206, 0x0207,
  0x0208, 0x0209, 0x0210, 0x0211, 0x0301, 0x0302, 0x0303, 0x0304, 0x0305, 0x0306, 0x0401, 0x0402, 0x0403, 0x0501,
  0x0502, 0x0503, 0x0504, 0x0505, 0x0506, 0x0601, 0x0602, 0x0603, 0x0604, 0x0605, 0x0701, 0x0702, 0x0703, 0x0704,
  0x0705, 0x0706, 0x0707]

/-- A code that the spec leaves open: free among those of R200 (R12; log 8). -/
def freeCode (n : Nat) : Code := statusCodes.getD (Config.freeNat n % statusCodes.length) 0

/-- A partition. -/
def State.part (s : State) (p : PartNo) : Part := s.parts[p]

/-- Replace a partition. -/
def State.setPart (s : State) (p : PartNo) (x : Part) : State := { s with parts := s.parts.set p x }

/-- Change a partition. -/
def State.updPart (s : State) (p : PartNo) (f : Part → Part) : State := s.setPart p (f (s.part p))

/-- The key of a core: partition × 1024 + logical core. -/
def coreKey (p : PartNo) (c : Fin 1024) : Nat := p.val * 1024 + c.val

/-- A core. -/
def State.core (s : State) (p : PartNo) (c : Fin 1024) : Core := Table.get {} s.cores (coreKey p c)

/-- Replace a core. -/
def State.setCore (s : State) (p : PartNo) (c : Fin 1024) (x : Core) : State :=
  { s with cores := Table.set {} s.cores (coreKey p c) x }

/-- Change a core. -/
def State.updCore (s : State) (p : PartNo) (c : Fin 1024) (f : Core → Core) : State :=
  s.setCore p c (f (s.core p c))

/-- An inbound side. -/
def State.qin (s : State) (p : PartNo) (c : Fin 1024) (q : Fin 8) : QIn :=
  Table.get {} s.qins (coreKey p c * 8 + q.val)

/-- Replace an inbound side. -/
def State.setQin (s : State) (p : PartNo) (c : Fin 1024) (q : Fin 8) (x : QIn) : State :=
  { s with qins := Table.set {} s.qins (coreKey p c * 8 + q.val) x }

/-- An outbound binding. -/
def State.qout (s : State) (p : PartNo) (c : Fin 1024) (q : Fin 8) : QOut :=
  Table.get {} s.qouts (coreKey p c * 8 + q.val)

/-- Replace an outbound binding. -/
def State.setQout (s : State) (p : PartNo) (c : Fin 1024) (q : Fin 8) (x : QOut) : State :=
  { s with qouts := Table.set {} s.qouts (coreKey p c * 8 + q.val) x }

/-- A DMA channel. -/
def State.chan (s : State) (cl : Fin 32) (ch : Fin 16) : DmaChan := s.dma[cl].chans[ch]

/-- Replace a DMA channel. -/
def State.setChan (s : State) (cl : Fin 32) (ch : Fin 16) (x : DmaChan) : State :=
  { s with dma := s.dma.set cl { s.dma[cl] with chans := s.dma[cl].chans.set ch x } }

/-- Change a DMA engine. -/
def State.updEng (s : State) (cl : Fin 32) (f : DmaEng → DmaEng) : State :=
  { s with dma := s.dma.set cl (f s.dma[cl]) }

/-- Change a cluster. -/
def State.updClu (s : State) (cl : Fin 32) (f : Clu → Clu) : State :=
  { s with clus := s.clus.set cl (f s.clus[cl]) }

/-- Change a memory controller. -/
def State.updMc (s : State) (m : Fin 12) (f : Mc → Mc) : State :=
  { s with hbm := { s.hbm with mcs := s.hbm.mcs.set m (f s.hbm.mcs[m]) } }

/-- A number as a unit of `n`; a number off the die is taken modulo. -/
def toFin (n : Nat) [NeZero n] (x : Nat) : Fin n := Fin.ofNat n x

/-- The partitions' fields of a layout code, in R17's order (R17, R202). -/
def layoutFields (code : Nat) : List (List Nat) :=
  match code with
  | 0 => [[0], [1], [2], [3]]
  | 1 => [[0, 1], [2], [3]]
  | 2 => [[0], [1, 2], [3]]
  | 3 => [[0], [1], [2, 3]]
  | 4 => [[0, 1], [2, 3]]
  | 5 => [[0, 1, 2], [3]]
  | 6 => [[0], [1, 2, 3]]
  | _ => [[0, 1, 2, 3]]

/-- The fields of a partition; empty where it does not exist in the layout in force. -/
def State.fields (s : State) (p : PartNo) : List Nat := (layoutFields s.host.layout.toNat).getD p.val []

/-- Whether the partition exists in the layout in force (R17). -/
def State.partExists (s : State) (p : PartNo) : Bool := !(s.fields p).isEmpty

/-- The device-wide number of a partition's logical cluster (R15). -/
def State.cluster (s : State) (p : PartNo) (l : Nat) : Fin 32 := toFin 32 ((s.part p).clusters.getD l 0)

/-- The device-wide cluster of a logical core (R15). -/
def State.coreCluster (s : State) (p : PartNo) (c : Fin 1024) : Fin 32 := s.cluster p (c.val / 32)

/-- The partition that holds a device-wide cluster, with its logical number there. -/
def State.clusterPart (s : State) (cl : Fin 32) : Option (PartNo × Nat) :=
  (List.finRange 4).findSome? fun p =>
    ((s.part p).clusters.findIdx? (· == cl.val)).map fun l => (p, l)

/-- The logical cores of a partition, as core numbers. -/
def State.partCores (s : State) (p : PartNo) : List (Fin 1024) :=
  (List.range ((s.part p).clusters.length * 32)).map (toFin 1024)

/-- Whether a partition runs: its units accept work (R203, R291). -/
def State.partLive (s : State) (p : PartNo) : Bool :=
  s.partExists p && ((s.part p).state == 2 || (s.part p).state == 3)

/-- The port of a partition's owner: false A, true B (R187). -/
def State.owner (s : State) (p : PartNo) : Bool := s.host.partOwner.getLsbD p.val

/-- A number for a free value, and the state after it is used up (log 8). -/
def State.bump (s : State) : State := { s with freeCtr := s.freeCtr + 1 }

/-- An MSI-X message for a port's vector: sent, or left pending while the vector is masked or messages are
disabled; lost while the port is down (R179, R180, R196; log 11). -/
def State.raiseVector (s : State) (port : Bool) (vec : BitVec 8) : State :=
  let i : Fin 2 := if port then 1 else 0
  let fn := s.host.ports[i]
  if !fn.up then s
  else if !fn.busMaster || !fn.msixEnable || fn.msixMask || (Table.get {} fn.msix vec.toNat).masked then
    { s with host := { s.host with ports := s.host.ports.set i { fn with pba := setBit fn.pba vec.toNat true } } }
  else { s with host := { s.host with msixSent := s.host.msixSent ++ [(port, vec)] } }

/-- Write an event into a log, or drop it when the ring is full; the second result says that the
vector is to be raised (R198, R199). -/
def EvtLog.write (l : EvtLog) (e : EvtEntry) : EvtLog × Bool :=
  if l.tail.tail - l.ctrl.head = 256 then ({ l with tail := { l.tail with lost := satInc l.tail.lost } }, false)
  else
    ({ l with tail := { l.tail with tail := l.tail.tail + 1 },
              entries := Table.set {} l.entries (l.tail.tail.toNat % 256) e },
     l.ctrl.enable && l.tail.tail == l.ctrl.head)

/-- An event of a partition, in its log (R189, R197). -/
def State.eventPart (s : State) (p : PartNo) (code : Code) (detail : Nat) : State :=
  let e : EvtEntry := { time := s.time, code := code, part := BitVec.ofNat 2 p.val, detail := BitVec.ofNat 32 detail }
  let w := (s.part p).evt.write e
  let s1 := s.updPart p fun x => { x with evt := w.1 }
  if w.2 then s1.raiseVector (s.owner p) w.1.ctrl.vector else s1

/-- An event in the chip log, with an in-band interrupt on I3C (R189, R197, R434). -/
def State.eventChip (s : State) (code : Code) (part : Nat) (detail : Nat) : State :=
  let e : EvtEntry := { time := s.time, code := code, part := BitVec.ofNat 2 part, chip := true, detail := BitVec.ofNat 32 detail }
  let w := s.host.chipEvt.write e
  let s1 := { s with host := { s.host with chipEvt := w.1 }, mgmt := { s.mgmt with ibis := s.mgmt.ibis + 1 } }
  if w.2 then s1.raiseVector s.host.chipOwner w.1.ctrl.vector else s1

/-- Note the latest escalation: its level, partition, core and code (R407, R408, R432). -/
def State.escalate (s : State) (level : Nat) (p : PartNo) (core : BitVec 10) (code : Code) : State :=
  let st := { s.rcv.status with
    lastCode := code, lastLevel := BitVec.ofNat 3 level, lastPart := BitVec.ofNat 2 p.val, lastCore := core }
  { s with rcv := { s.rcv with status := st } }

/-- A response of the management port (R437). -/
def State.respond (s : State) (type : Nat) (m : Bool × BitVec 32 × BitVec 64) (status : Code) (body : List Word) : State :=
  { s with mgmt := { s.mgmt with responses := s.mgmt.responses ++
    [{ i3c := m.1, type := BitVec.ofNat 16 (32768 + type), tag := m.2.1, counter := m.2.2, status := status, body := body }] } }

/-- The device number at in-rack offsets from a package's own (R5, R246). -/
def neighbour (d : DeviceNo) (dx dy : Nat) : DeviceNo :=
  let v := d.toNat
  BitVec.ofNat 14 (v / 64 * 64 + (v / 8 + dy) % 8 * 8 + (v + dx) % 8)

/-- FP_EXPECT of P0 to P7, computed from the package's coordinates (R246, R247). -/
def State.expectOf (s : State) (role : Nat) : FpExpect :=
  match s.device with
  | none => {}
  | some d =>
    let e (dx dy r : Nat) : FpExpect := { device := neighbour d dx dy, role := BitVec.ofNat 5 r, valid := true }
    match role with
    | 0 => e 1 0 1
    | 1 => e 7 0 0
    | 2 => e 2 0 3
    | 3 => e 6 0 2
    | 4 => e 0 1 5
    | 5 => e 0 7 4
    | 6 => e 0 2 7
    | 7 => e 0 6 6
    | _ => {}

/-- FP_EXPECT of a port: computed from the coordinates for the roles of P0 to P7, else as written (R247, R273). -/
def State.expectAt (s : State) (n : Fin 20) : FpExpect :=
  let x := s.fab.links[n]
  if x.status.role.toNat < 8 then s.expectOf x.status.role.toNat else x.expect

/-- Append an entry to the field defect log, with bits [61:30] of rack time (R390). -/
def State.logDefect (s : State) (e : DefectEntry) : State :=
  { s with flash := { s.flash with defects := s.flash.defects ++ [{ e with time := BitVec.ofNat 32 (bitsAt s.time.toNat 30 32) }] } }

/-- Hand a packet to the fabric, or to its unit when it stays in the package (R111, R150). -/
def State.send (s : State) (p : Pkt) : State :=
  if s.device = some p.dest then { s with fab := { s.fab with deliver := s.fab.deliver ++ [p] } }
  else { s with fab := { s.fab with inject := s.fab.inject ++ [p] } }

/-- Hand several packets on, in order. -/
def State.sendAll (s : State) (ps : List Pkt) : State := ps.foldl State.send s

/-- The package's own device number as packets name it; zero while it is unknown. -/
def State.self (s : State) : DeviceNo := s.device.getD 0

/-- A field of a packet's descriptor: `width` bits from bit `lo` of byte `off` (R277). -/
def Pkt.field (p : Pkt) (off lo width : Nat) : Nat := bitsAt p.desc.toNat (8 * off + lo) width

/-- A descriptor from fields given as (byte offset, low bit, width, value) (R277). -/
def mkDesc (fs : List (Nat × Nat × Nat × Nat)) : Line :=
  packFields (fs.map fun f => (8 * f.1 + f.2.1, f.2.2.1, f.2.2.2))

/-- ENDPOINT of a core's queue (R276). -/
def queueEndpoint (core queue : Nat) : BitVec 16 := packFields [(0, 10, core), (10, 3, queue)]

/-! ## Core-local memory -/

/-- Where a core-local address lies in the SRAM map, for an access of `n` bytes; none outside its
space (R79). -/
def State.localAt (s : State) (p : PartNo) (c : Fin 1024) (a n : Nat) : Option Nat :=
  if a ≥ 2 ^ 25 then none
  else if a.testBit 24 then
    if a % 2 ^ 24 + n > 2 ^ 24 then none
    else some (2 ^ 33 + (s.coreCluster p c).val * 2 ^ 24 + a % 2 ^ 24)
  else if a % 2 ^ 24 + n > 2 ^ 21 then none
  else some (coreKey p c * 2 ^ 21 + a % 2 ^ 24)

/-- Where a byte of a partition's scratchpad (SPACE 1) or cluster memory (SPACE 2) lies (R110). -/
def State.spaceAt (s : State) (p : PartNo) (space : BitVec 2) (unit off : Nat) : Nat :=
  if space = 1 then coreKey p (toFin 1024 unit) * 2 ^ 21 + off
  else 2 ^ 33 + (s.cluster p unit).val * 2 ^ 24 + off

/-- The lines that a range of bytes touches. -/
def linesOf (a n : Nat) : List Nat :=
  if n = 0 then [] else (List.range ((a + n - 1) / 64 - a / 64 + 1)).map (a / 64 + ·)

/-- Whether a line lies wholly in a range of bytes. -/
def covers (a n l : Nat) : Bool := decide (a ≤ 64 * l) && decide (64 * l + 64 ≤ a + n)

/-- Whether a line of the range is poisoned (R105). -/
def State.sramPoisoned (s : State) (a n : Nat) : Bool := (linesOf a n).any fun l => s.sramPoison.contains l

/-- Write bytes without poison: a line written whole is clean, a poisoned line written in part stays
poisoned (R105). -/
def State.writeSram (s : State) (a : Nat) (bs : List Byte) : State :=
  { s with sram := Mem.write s.sram a bs,
           sramPoison := s.sramPoison.filter fun l => !covers a bs.length l }

/-- Poison one line; its bytes are then unspecified (R105). -/
def State.poisonLine (s : State) (l : Nat) : State :=
  { s with sram := Mem.write s.sram (64 * l) (bytesOfNat 64 (Config.freeBlock s.freeCtr).toNat),
           sramPoison := insertNat l s.sramPoison, freeCtr := s.freeCtr + 1 }

/-- Poison every line of a range (R105). -/
def State.poisonSram (s : State) (a n : Nat) : State := (linesOf a n).foldl State.poisonLine s

/-- Write bytes that carry the poison tag, or not (R105). -/
def State.putSram (s : State) (a : Nat) (bs : List Byte) (poison : Bool) : State :=
  if poison then s.poisonSram a bs.length else s.writeSram a bs

/-- Zero a range with its poison bits (R140). -/
def State.zeroSram (s : State) (a n : Nat) : State :=
  { s with sram := Mem.clear s.sram a n,
           sramPoison := s.sramPoison.filter fun l => decide (64 * l < a) || decide (a + n ≤ 64 * l) }

/-- Count an SRAM error in the partition domain (R138). -/
def State.countSram (s : State) (p : PartNo) (err : LineOutcome) : State :=
  match err with
  | .none => s
  | .unstated => s
  | .corrected => s.updPart p fun x => { x with sramCount := { x.sramCount with ce := satInc x.sramCount.ce } }
  | .uncorrected => s.updPart p fun x => { x with sramCount := { x.sramCount with ue := satInc x.sramCount.ue } }

/-- Read a line of scratchpad or cluster memory with wrong stored bits: a corrected error is counted, an uncorrectable
one poisons the line and is counted, and a poison bit whose vote is lost reads inverted (R137, R138). Where the code states
no outcome, the words it leaves wrong hold free values and a free choice says what is counted (log 7). -/
def State.readLine (s : State) (p : PartNo) (l : Nat) (e : LineErrs) : State :=
  let s0 := if !voteFlips e then s
    else if s.sramPoison.contains l then { s with sramPoison := s.sramPoison.filter (· != l) }
    else s.poisonLine l
  match lineOutcome e with
  | .none => s0
  | .corrected => s0.countSram p .corrected
  | .uncorrected => (s0.countSram p .uncorrected).poisonLine l
  | .unstated =>
    let x := scrambled e (BitVec.ofNat 512 (Mem.readNat s0.sram (64 * l) 64)) ((Config.freeBlock s0.freeCtr).setWidth 512)
    let s1 := { s0.bump with sram := Mem.write s0.sram (64 * l) (bytesOfNat 64 x.toNat) }
    let n := Config.freeNat s1.freeCtr % 3
    if n = 0 then s1.bump
    else if n = 1 then s1.bump.countSram p .corrected
    else (s1.bump.countSram p .uncorrected).poisonLine l

/-! ## Registers, faults and the issue of an instruction -/

/-- A general register; g0 reads as zero (R77). -/
def Core.gr (c : Core) (r : Reg) : Word := if r = 0 then 0 else c.g[r]

/-- Write a general register; g0 ignores writes (R77). -/
def Core.setGr (c : Core) (r : Reg) (x : Word) : Core := if r = 0 then c else { c with g := c.g.set r x }

/-- A vector register. -/
def Core.vr (c : Core) (r : Reg) : Block := c.v[r]

/-- Write a vector register with its poison bit. -/
def Core.setVr (c : Core) (r : Reg) (x : Block) (poison : Bool) : Core :=
  { c with v := c.v.set r x, vp := setBit c.vp r.val poison }

/-- Whether a vector register is poisoned. -/
def Core.vpoison (c : Core) (r : Reg) : Bool := c.vp.getLsbD r.val

/-- CORE_STATUS as a reader sees it (R101). -/
def Core.status (c : Core) (waveHeld : Bool) : CoreStatus :=
  { state := c.state, mmOutstanding := BitVec.ofNat 4 c.mms.length, waveHeld := waveHeld }

/-- Record a fault of the instruction at place `order` in program order: the earliest stands, of one
instruction the cause that stands highest in the table; a further fault sets MULTI. Nothing more is
recorded once STATE is faulted (R103, R104). -/
def Core.raise (c : Core) (order : Word) (cause : Nat) (code : Code) (pc addr : Word) : Core :=
  if c.state = 5 then c
  else
    let f : CoreFault := { cause := BitVec.ofNat 8 cause, code := code }
    if !c.faulted then
      { c with faulted := true, faultOrder := order, fault := f, faultPc := pc, faultAddr := addr, held := none }
    else if order < c.faultOrder ∨ (order = c.faultOrder ∧ BitVec.ofNat 8 cause < c.fault.cause) then
      { c with faultOrder := order, fault := { f with multi := true }, faultPc := pc, faultAddr := addr }
    else { c with fault := { c.fault with multi := true } }

/-- The bytes of the running segment (R77). -/
def Core.segLen (c : Core) : Nat := match c.ctx with | some x => x.segLen | none => 0

/-- Go on at a program counter: one more instruction is retired, and a fetch at or past SEG_LEN raises
the address fault there (R77, R101). -/
def Core.retireTo (c : Core) (pc : Word) : Core :=
  let c1 := { c with pc := pc, progress := c.progress + 1 }
  if pc.toNat ≥ c.segLen then
    c1.raise c1.progress 3 0x0207 (BitVec.ofNat 64 c.segLen) (BitVec.ofNat 64 c.segLen)
  else c1

/-- Go on at the next instruction. -/
def Core.retire (c : Core) : Core := c.retireTo (c.pc + 4)

/-- A consumption of poison: CONSUMED, FIRST_PATH of the first one, COUNT (R106). -/
def Core.consume (c : Core) (path : Nat) : Core :=
  { c with poison := { c.poison with
      consumed := true
      firstPath := if c.poison.consumed then c.poison.firstPath else BitVec.ofNat 2 path
      count := satInc c.poison.count } }

/-- Poisoned data written, pushed or sent (R101). -/
def Core.emit (c : Core) : Core := { c with poison := { c.poison with emitted := true } }

/-- How an instruction ends on its core. -/
inductive CRes where
  /-- It completes; the core goes on at the next instruction. -/
  | done (c : Core)
  /-- It completes and goes on at a checked target (R77). -/
  | jump (c : Core) (target : Word)
  /-- It has no effect and raises a fault: cause, code, CORE_FAULT_ADDR (R102, R103). -/
  | fault (cause : Nat) (code : Code) (addr : Word)
  /-- It has no effect, and several causes of fault arise in it: the one that stands highest in the table "Core
  faults" is recorded, and MULTI is set (R104). -/
  | multiFault (cause : Nat) (code : Code) (addr : Word)
  /-- It has no effect but a consumption of poison, and raises the poison fault (R105, R106). -/
  | poisoned (path : Nat)
  /-- It completes, then raises a fault (R106). -/
  | doneFault (c : Core) (cause : Nat) (code : Code)
  /-- It waits, and STATE shows the value (R78, R101). -/
  | wait (state : BitVec 3)
  /-- The core is as given; the program counter was dealt with (END, TRAP, BAR). -/
  | as (c : Core)
  deriving DecidableEq, Repr

/-- Apply an instruction's end to its core. -/
def CRes.apply (r : CRes) (c : Core) (instr : Instr) : Core :=
  match r with
  | .done c1 => { c1 with state := 1, held := none }.retire
  | .jump c1 t =>
    if t.toNat % 4 ≠ 0 ∨ t.toNat ≥ c.segLen then { c with state := 1, held := none }.raise c.progress 3 0x0207 c.pc t
    else { c1 with state := 1, held := none }.retireTo t
  | .fault cause code addr => { c with state := 1, held := none }.raise c.progress cause code c.pc addr
  | .multiFault cause code addr =>
    ({ c with state := 1, held := none }.raise c.progress cause code c.pc addr).raise c.progress cause code c.pc addr
  | .poisoned path => ({ c with state := 1, held := none }.consume path).raise c.progress 5 0x0201 c.pc 0
  | .doneFault c1 cause code =>
    ({ c1 with state := 1, held := none }.retire).raise c.progress cause code c.pc 0
  | .wait st => { c with state := st, held := some instr }
  | .as c1 => c1

/-- Several causes of fault in one instruction: the first when it is alone (R104). -/
def CRes.faultWith (more : Bool) (cause : Nat) (code : Code) (addr : Word) : CRes :=
  if more then .multiFault cause code addr else .fault cause code addr

/-- The end of an instruction in which a further fault arises, of a cause that stands lower in the table "Core
faults" than operand and address (R104): with a fault of its own that one is recorded and MULTI is set. -/
def CRes.alsoFault (r : CRes) (cause : Nat) (code : Code) : CRes :=
  match r with
  | .fault c2 k a => if c2 < cause then .multiFault c2 k a else .multiFault cause code 0
  | .multiFault c2 k a => if c2 < cause then .multiFault c2 k a else .multiFault cause code 0
  | .poisoned _ => .multiFault 5 0x0201 0
  | _ => .fault cause code 0

/-- Whether a core issues: a running context, nothing held, no fault, not halted (R76, R101, R103). -/
def Core.canIssue (c : Core) : Bool :=
  c.ctx.isSome && c.state == 1 && !c.faulted && c.held.isNone && !c.ctrl.halt && !c.aborting && !c.lost

/-- What an instruction does: the state but for its core's end, and that end. -/
abbrev Body := State → Core → State × CRes

/-- Run an instruction's body on its core. -/
def State.runBody (s : State) (p : PartNo) (k : Fin 1024) (instr : Instr) (b : Body) : State :=
  let c := s.core p k
  let r := b s c
  r.1.setCore p k (r.2.apply c instr)

/-- Issue an instruction: a core that does not issue leaves the state as it is (log 1); an error of the
word raises the encoding fault, one of a register or descriptor slot the state fault, beside any other fault of the
same instruction (R102, R104, R138). A corrected error is counted in MEM_SRAM_COUNT.CE (R138). -/
def State.issue (s : State) (i : Issue) (instr : Instr) (b : Body) : State :=
  let c := s.core i.part i.core
  if !c.canIssue || !s.partLive i.part then s
  else match i.hw with
    | .encoding => s.runBody i.part i.core instr fun s _ => (s, .fault 1 0x0110 0)
    | .state => s.runBody i.part i.core instr fun s c => (s, (b s c).2.alsoFault 9 0x0203)
    | .corrected => (s.countSram i.part .corrected).runBody i.part i.core instr b
    | .none => s.runBody i.part i.core instr b

/-- A body that changes only its core. -/
def pureBody (f : Core → CRes) : Body := fun s c => (s, f c)

/-- A body whose RSVD bits are to be zero, else the encoding fault (R80). Such a word is no instruction, so that no
operand or address fault arises in it beside (R104; DEDUCED, log 18). -/
def rsvdBody (zero : Bool) (b : Body) : Body := fun s c => if zero then b s c else (s, .fault 1 0x0110 0)

/-- Complete with a consumption of poison; with POISON_TRAP the first one raises the poison fault after
the instruction (R106). -/
def consumeDone (before c : Core) (path : Nat) : CRes :=
  if before.ctrl.poisonTrap && !before.poison.consumed then .doneFault (c.consume path) 5 0x0201
  else .done (c.consume path)

/-- Sign extension of an immediate to 64 bits (R81). -/
def sext {w : Nat} (x : BitVec w) : Word := x.signExtend 64

/-! ## The boot control record -/

/-- WRITES `a` is later than `b`, modulo 2^16 (R455). -/
def writesLater (a b : BitVec 16) : Bool := decide (0 < (a - b).toNat) && decide ((a - b).toNat < 32768)

/-- The copy in force is the second (R455). -/
def Flash.second (f : Flash) : Bool :=
  match f.boot[0], f.boot[1] with
  | some a, some b => writesLater b.writes a.writes
  | none, some _ => true
  | _, none => false

/-- The boot control record in force (R455). -/
def State.bootRec (s : State) : BootRec := (if s.flash.second then s.flash.boot[1] else s.flash.boot[0]).getD {}

/-- Write the boot control record to the other copy (R455). -/
def State.writeBoot (s : State) (r : BootRec) : State :=
  let i : Fin 2 := if s.flash.second then 0 else 1
  { s with flash := { s.flash with boot := s.flash.boot.set i (some { r with writes := s.bootRec.writes + 1 }) } }

/-! ## Settings -/

/-- The settings that firmware reads: the copy in the running image's format; where there is none, the latest written (R461;
log 66). -/
def State.settings (s : State) : Settings :=
  ((s.flash.copies.find? fun c => c.1 == s.mgmt.format).orElse fun _ => s.flash.copies.head?).elim {} (·.2)

/-- The formats in which a change is written: the running image's, and in a trial the old image's as well (R461). -/
def State.writeFormats (s : State) : List (BitVec 16) :=
  if s.bootRec.trial && s.bootRec.oldFormat != s.mgmt.format then [s.mgmt.format, s.bootRec.oldFormat] else [s.mgmt.format]

/-- Firmware writes a change of the settings (R461). -/
def State.writeSettings (s : State) (f : Settings → Settings) : State :=
  let v := f s.settings
  let fs := s.writeFormats
  { s with flash := { s.flash with
      copies := fs.map (fun x => (x, v)) ++ s.flash.copies.filter fun c => !fs.contains c.1 } }

/-- Erase the copies of a format, unless it is the one kept as well (R460, R462). -/
def State.eraseFormat (s : State) (gone kept : BitVec 16) : State :=
  if gone = kept then s
  else { s with flash := { s.flash with copies := s.flash.copies.filter fun c => c.1 != gone } }

end Sys2Proof.Machine
end

