-- ==== Sys2Proof/Machine/Rs.lean ====
section
/-! DEFINITION. The Reed-Solomon code of a granule's codeword (R121, R122): GF(2^16), the check
symbols, and what a decoder of three symbols does with a pattern of symbol errors. -/

namespace Sys2Proof.Machine

/-- Reduce a polynomial of degree at most 30 by x^16 + x^12 + x^3 + x + 1 (R122). -/
def gfReduce (x : Nat) : Nat :=
  (List.range 15).foldl (fun x i => if x.testBit (30 - i) then x ^^^ (0x1100B <<< (14 - i)) else x) x

/-- Product in GF(2^16) (R122). -/
def gfMul (a b : Nat) : Nat :=
  gfReduce ((List.range 16).foldl (fun x i => if b.testBit i then x ^^^ (a <<< i) else x) 0)

/-- A power in GF(2^16), by the `n` low bits of the exponent. -/
def gfPowBits (a e : Nat) : Nat → Nat
  | 0 => 1
  | n + 1 => let r := gfPowBits a (e / 2) n
             let q := gfMul r r
             if e % 2 = 1 then gfMul q a else q

/-- The inverse in GF(2^16): the power 2^16 - 2. -/
def gfInv (a : Nat) : Nat := gfPowBits a 65534 16

/-- The power of α, a root of the field polynomial (R122). -/
def gfAlpha (n : Nat) : Nat := gfPowBits 2 (n % 65535) 16

/-- The locator of symbol `i`: the first symbol is the coefficient of the highest power, so that the
check symbols 130 to 135 are the remainder (R121; the order is the model's reading, log 12). -/
def rsLocator (i : Nat) : Nat := gfAlpha (135 - i)

/-- Multiply a polynomial (low power first) by (x - r). -/
def gfPolyMulRoot (p : List Nat) (r : Nat) : List Nat :=
  List.zipWith (· ^^^ ·) (0 :: p) ((p.map (gfMul r)) ++ [0])

/-- The generator polynomial, low power first (R122). -/
def rsGenerator : List Nat := (List.range 6).foldl (fun p j => gfPolyMulRoot p (gfAlpha j)) [1]

/-- One step of the division by the generator: the remainder's six coefficients, high power first. -/
def rsShift (rem : List Nat) (sym : Nat) : List Nat :=
  let q := (rem.headD 0) ^^^ sym
  List.zipWith (fun r g => r ^^^ gfMul q g) ((rem.drop 1) ++ [0]) ((rsGenerator.take 6).reverse)

/-- The six check symbols of 130 data and metadata symbols (R121, R122). -/
def rsCheck (syms : List Nat) : List Nat := syms.foldl rsShift (List.replicate 6 0)

/-- The syndromes of an error pattern: each entry is a symbol's place and its nonzero difference. -/
def rsSyndrome (errs : List (Nat × Nat)) (j : Nat) : Nat :=
  errs.foldl (fun a e => a ^^^ gfMul e.2 (gfPowBits (rsLocator e.1) j 3)) 0

/-- The six syndromes. -/
def rsSyndromes (errs : List (Nat × Nat)) : List Nat := (List.range 6).map (rsSyndrome errs)

/-- Determinant of three rows and columns in characteristic 2. -/
def gfDet3 (a b c d e f g h i : Nat) : Nat :=
  gfMul a (gfMul e i ^^^ gfMul f h) ^^^ gfMul b (gfMul d i ^^^ gfMul f g)
    ^^^ gfMul c (gfMul d h ^^^ gfMul e g)

/-- The locator polynomial's coefficients σ1, σ2, σ3 from the syndromes, by Cramer's rule. -/
def rsSigma (s : Nat → Nat) : List Nat :=
  let d3 := gfDet3 (s 0) (s 1) (s 2) (s 1) (s 2) (s 3) (s 2) (s 3) (s 4)
  if d3 ≠ 0 then
    let k := gfInv d3
    [ gfMul k (gfDet3 (s 0) (s 1) (s 3) (s 1) (s 2) (s 4) (s 2) (s 3) (s 5)),
      gfMul k (gfDet3 (s 0) (s 3) (s 2) (s 1) (s 4) (s 3) (s 2) (s 5) (s 4)),
      gfMul k (gfDet3 (s 3) (s 1) (s 2) (s 4) (s 2) (s 3) (s 5) (s 3) (s 4)) ]
  else
    let d2 := gfMul (s 0) (s 2) ^^^ gfMul (s 1) (s 1)
    if d2 ≠ 0 then
      let k := gfInv d2
      [ gfMul k (gfMul (s 0) (s 3) ^^^ gfMul (s 1) (s 2)),
        gfMul k (gfMul (s 1) (s 3) ^^^ gfMul (s 2) (s 2)), 0 ]
    else if s 0 ≠ 0 then [gfMul (s 1) (gfInv (s 0)), 0, 0] else [0, 0, 0]

/-- The symbols whose locator is a root of X^3 + σ1 X^2 + σ2 X + σ3 (as many as the degree used). -/
def rsPlaces (sg : List Nat) : List Nat :=
  let s1 := sg.getD 0 0
  let s2 := sg.getD 1 0
  let s3 := sg.getD 2 0
  (List.range 136).filter fun i =>
    let x := rsLocator i
    if s3 ≠ 0 then (gfMul x (gfMul x (x ^^^ s1) ^^^ s2) ^^^ s3) = 0
    else if s2 ≠ 0 then (gfMul x (x ^^^ s1) ^^^ s2) = 0
    else decide (s1 ≠ 0 ∧ x = s1)

/-- The error values at given places, by Cramer's rule on the first syndromes. -/
def rsValues (s : Nat → Nat) (ps : List Nat) : List (Nat × Nat) :=
  match ps.map rsLocator, ps with
  | [_], [p] => [(p, s 0)]
  | [x, y], [p, q] =>
    let k := gfInv (x ^^^ y)
    [(p, gfMul k (gfMul (s 0) y ^^^ s 1)), (q, gfMul k (gfMul (s 0) x ^^^ s 1))]
  | [x, y, z], [p, q, r] =>
    let v := fun a b c => gfMul (gfInv (gfMul (a ^^^ b) (a ^^^ c)))
      (gfMul (s 0) (gfMul b c) ^^^ gfMul (s 1) (b ^^^ c) ^^^ s 2)
    [(p, v x y z), (q, v y x z), (r, v z x y)]
  | _, _ => []

/-- The pattern of at most three symbols that a decoder finds behind the syndromes of a longer
pattern, if there is one (R122). -/
def rsAlias (errs : List (Nat × Nat)) : Option (List (Nat × Nat)) :=
  let ss := rsSyndromes errs
  let s := fun j => ss.getD j 0
  if ss.all (· = 0) then some []
  else
    let f := rsValues s (rsPlaces (rsSigma s))
    if f.length > 0 && f.all (fun e => decide (e.2 ≠ 0)) && decide (rsSyndromes f = ss) then some f else none

/-- What the decoder takes the error pattern to be: any pattern of at most three symbols itself; a
longer one only where it decodes as a correctable one (R122). -/
def rsDecode (errs : List (Nat × Nat)) : Option (List (Nat × Nat)) :=
  if errs.length ≤ 3 then some errs else rsAlias errs

/-- The symbols that are still wrong after correction with the decoder's pattern: the real pattern
and the decoder's, taken together. -/
def rsResidue (errs found : List (Nat × Nat)) : List (Nat × Nat) :=
  if errs.length ≤ 3 then [] else errs ++ found

/-- Data with symbol differences applied; symbols 0 to 127 are the data (R121). -/
def applySymbols (data : Block) (errs : List (Nat × Nat)) : Block :=
  errs.foldl (fun d e => if e.1 < 128 then d ^^^ BitVec.ofNat 2048 (e.2 * 2 ^ (16 * e.1)) else d) data

/-- Metadata with symbol differences applied; symbols 128 and 129 are the metadata (R121). -/
def applyMetaSymbols (m : BitVec 32) (errs : List (Nat × Nat)) : BitVec 32 :=
  errs.foldl (fun d e => if e.1 = 128 then d ^^^ BitVec.ofNat 32 e.2
    else if e.1 = 129 then d ^^^ BitVec.ofNat 32 (e.2 * 65536) else d) m

/-- A pattern of symbol errors as hardware can show it: places below 136, once each, differences
nonzero and of 16 bits. -/
def symbolsWF (errs : List (Nat × Nat)) : Bool :=
  errs.all (fun e => decide (e.1 < 136) && decide (0 < e.2) && decide (e.2 < 65536)) &&
    decide ((errs.map (·.1)).Nodup)

end Sys2Proof.Machine
end

