-- ==== Sys2Proof/Machine/StackOps.lean ====
section
/-! DEFINITION. Stacked memory: placement (R113 to R115), granules and metadata (R118, R123, R124,
R126), sweeps (R132), retirement (R125 to R129), reads and writes by every unit. -/

namespace Sys2Proof.Machine

/-! ## Placement -/

/-- Pages of 4 KiB in one field's region before retirement (R114). -/
def fieldPages0 : Nat := 46923776

/-- Pages in the dump area (R109). -/
def dumpPages : Nat := 65536

/-- The placement in force (R113, R114). -/
def State.placement (s : State) : Placement :=
  { all := s.memConfig.mode, layout := layoutFields s.host.layout.toNat,
    fieldPages := s.hbm.retiredGib.map fun r => fieldPages0 - 262144 * r }

/-- The fields of a partition in a placement. -/
def Placement.fields (pl : Placement) (p : Nat) : List Nat := pl.layout.getD p []

/-- Pages below C_p (R108). -/
def Placement.pages (pl : Placement) (p : Nat) : Nat :=
  ((pl.fields p).map fun f => pl.fieldPages.getD f 0).foldl (· + ·) 0

/-- Pages of a partition's share on each stack, in ALL mode (R114, R115). -/
def Placement.share (pl : Placement) (p : Nat) : Nat := ceilDiv (fieldPages0 * (pl.fields p).length) 12

/-- The first page of a partition's share (R115). -/
def Placement.shareBase (pl : Placement) (p : Nat) : Nat := ((List.range p).map pl.share).foldl (· + ·) 0

/-- The field whose region holds a page of a partition, and the page within that region (R114). -/
def Placement.regionOf (pl : Placement) : List Nat → Nat → Option (Nat × Nat)
  | [], _ => none
  | f :: t, u => if u < pl.fieldPages.getD f 0 then some (f, u) else pl.regionOf t (u - pl.fieldPages.getD f 0)

/-- The stack and stack page of a partition's page; none at or above C_p (R114). -/
def Placement.locate (pl : Placement) (p u : Nat) : Option (Nat × Nat) :=
  if u ≥ pl.pages p then none
  else if pl.all then some ((u + u / 12) % 12, pl.shareBase p + u / 12)
  else match pl.regionOf (pl.fields p) u with
    | none => none
    | some (f, v) => some (3 * f + (v + v / 3) % 3, v / 3)

/-- The partition and its page that a stack page holds; none for a page of the pool (R114, R117). -/
def Placement.owner (pl : Placement) (stack page : Nat) : Option (Nat × Nat) :=
  if pl.all then
    (List.range 4).findSome? fun p =>
      if pl.shareBase p ≤ page ∧ page < pl.shareBase p + pl.share p then
        let g := page - pl.shareBase p
        let u := 12 * g + (stack + 12 - g % 12) % 12
        if u < pl.pages p then some (p, u) else none
      else none
  else
    let f := stack / 3
    let v := 3 * page + (stack % 3 + 3 - page % 3) % 3
    if v ≥ pl.fieldPages.getD f 0 then none
    else (List.range 4).findSome? fun p =>
      if (pl.fields p).contains f then
        some (p, (((pl.fields p).takeWhile (· != f)).map fun g => pl.fieldPages.getD g 0).foldl (· + ·) v)
      else none

/-- How many of the first `n` pages of a range interleaved over `k` stacks lie on the `i`-th (R114). -/
def pagesOn (k i n : Nat) : Nat := n / k + (if (i + k - n / k % k) % k < n % k then 1 else 0)

/-- Pages of regions or shares on a stack. In ALL mode a share keeps its unretired size, but for the pages withdrawn
from this stack (R115, R117, R129). -/
def Placement.stackPages (pl : Placement) (stack : Nat) : Nat :=
  if pl.all then
    ((List.range 4).map fun p =>
      pl.share p - (pagesOn 12 stack (fieldPages0 * (pl.fields p).length) - pagesOn 12 stack (pl.pages p))).foldl (· + ·) 0
  else pagesOn 3 (stack % 3) (pl.fieldPages.getD (stack / 3) 0)

/-- Whole pages of a stack's data space (R117). -/
def stackPages0 : Nat := 15790320

/-! ## Granules -/

/-- The key of a granule: its place in stack × 2^36 + stack offset, divided by 256. -/
def granuleKey (stack page idx : Nat) : Nat := stack * 2 ^ 28 + page * 16 + idx

/-- The key of the granule that holds a device-local address (R114, R118). -/
def State.granuleAt (s : State) (p : PartNo) (a : Nat) : Option Nat :=
  (s.placement.locate p.val (a / 4096)).map fun x => granuleKey x.1 x.2 (a / 256 % 16)

/-- The stack of a granule's key. -/
def keyStack (key : Nat) : Fin 12 := toFin 12 (key / 2 ^ 28)

/-- The stack page of a granule's key. -/
def keyPage (key : Nat) : Nat := key % 2 ^ 28 / 16

/-- The metadata that a stack's full fill wrote to a page (R135). -/
def FillRec.metaOf (f : FillRec) (stack page : Nat) : Meta :=
  match f.place.owner stack page with
  | none => { owner := 0, wipeGen := f.gens.getD 0 0 }
  | some (p, u) =>
    if u < dumpPages then { owner := BitVec.ofNat 2 p, keep := true, wipeGen := f.dumpGens.getD p 0 }
    else { owner := BitVec.ofNat 2 p, wipeGen := f.gens.getD p 0 }

/-- The metadata of a granule (R123, R135). -/
def State.metaAt (s : State) (key : Nat) : Meta :=
  match Table.get none s.hbm.metas key with
  | some m => m
  | none => match s.hbm.mcs[keyStack key].fill with
    | none => {}
    | some f => f.metaOf (keyStack key).val (keyPage key)

/-- Store a granule's metadata. -/
def State.setMeta (s : State) (key : Nat) (m : Meta) : State :=
  { s with hbm := { s.hbm with metas := Table.set none s.hbm.metas key (some m) } }

/-- Store a granule's bytes. -/
def State.setGranule (s : State) (key : Nat) (bs : List Byte) : State :=
  { s with hbm := { s.hbm with data := Mem.write s.hbm.data (256 * key) bs } }

/-- The generation current for a partition: DUMP_GEN for dump-area granules, else GEN (R124). -/
def State.genOf (s : State) (p : PartNo) (keep : Bool) : BitVec 4 :=
  if keep then (s.part p).gen.dumpGen else (s.part p).gen.gen

/-- What a read of a granule delivers (R124). -/
inductive View where
  | absent | zero | mismatch | poison
  | data (key : Nat)
  deriving DecidableEq, Repr

/-- R124 for a granule without symbol errors. -/
def State.viewKey (s : State) (p : PartNo) (key : Nat) : View :=
  let m := s.metaAt key
  if m.wipeGen ≠ s.genOf p m.keep then .zero
  else if m.owner ≠ BitVec.ofNat 2 p.val then .mismatch
  else if m.poison then .poison else .data key

/-- What a read at a device-local address delivers (R107, R124). -/
def State.view (s : State) (p : PartNo) (a : Nat) : View :=
  match s.granuleAt p a with
  | none => .absent
  | some key => s.viewKey p key

/-- Bytes of a range within one granule. -/
def State.viewBytes (s : State) (p : PartNo) (a n : Nat) : List Byte :=
  match s.view p a with
  | .data key => Mem.read s.hbm.data (256 * key + a % 256) n
  | _ => zeros n

/-- Read a range of device-local addresses: its bytes, and whether some granule is poisoned (R126). -/
def State.stackRead (s : State) (p : PartNo) (a n : Nat) : List Byte × Bool :=
  let ps := pieces 0 a n
  ((ps.map fun x => s.viewBytes p x.1 x.2).flatten, ps.any fun x => s.view p x.1 == .poison)

/-- A range of stacked memory as a number, lowest byte first. -/
def State.stackNat (s : State) (p : PartNo) (a n : Nat) : Nat := natOfBytes (s.stackRead p a n).1

/-- Whether a range holds a poisoned granule. -/
def State.stackPoisoned (s : State) (p : PartNo) (a n : Nat) : Bool := (s.stackRead p a n).2

/-! ## Error records and retirement -/

/-- An entry of MC_ERR_LOG (R142). -/
def errLog (key kind : Nat) (owner : BitVec 2) (nsym : Nat) : McErrLog :=
  { stackOffset := BitVec.ofNat 36 (key % 2 ^ 28 * 256), kind := BitVec.ofNat 4 kind, owner := owner,
    nsym := BitVec.ofNat 2 (min nsym 3) }

/-- Note a poisoned granule in MEM_POISON_LOG (R125, R143). -/
def State.notePoison (s : State) (p : PartNo) (a : Nat) (stack : Fin 12) (src : Nat) : State :=
  s.updPart p fun x => { x with poisonLog :=
    { address := BitVec.ofNat 40 (a / 256 * 256), stack := BitVec.ofNat 4 stack.val, src := BitVec.ofNat 2 src,
      valid := true, count := satInc x.poisonLog.count } }

/-- Pages of a stack's pool that hold no retired page (R127). -/
def Mc.poolLeft (m : Mc) : Nat := m.spare.poolTotal.toNat - m.spare.poolUsed.toNat

/-- The defect log's entry of a retired page (R127, R390). -/
def pageEntry (st : Fin 12) (pg : Nat) : DefectEntry :=
  { kind := 3, cause := 2, field := BitVec.ofNat 2 (st.val / 3), stack := BitVec.ofNat 4 st.val, value := BitVec.ofNat 32 pg }

/-- Retire a page: take a pool page and start the copy; with an empty pool the retirement waits and a
capacity step becomes due (R127, R129). -/
def State.retirePage (s : State) (p : PartNo) (key : Nat) (owner : BitVec 2) (nsym : Nat) : State :=
  let st := keyStack key
  let pg := keyPage key
  let m := s.hbm.mcs[st]
  if m.retired.contains pg || m.copying.contains pg || m.waiting.contains pg then s
  else if m.poolLeft = 0 then
    let s1 := s.updMc st fun m => { m with
      waiting := m.waiting ++ [pg], spare := { m.spare with exhausted := true }, errLog := errLog key 6 owner nsym }
    let s2 := (s1.eventChip 0x0204 0 st.val).eventPart p 0x0204 st.val
    s2.updPart p fun x => if x.capacity.pendingGib = 0 then
      { x with capacity := { x.capacity with pendingGib := 1 }, pendingStack := st.val } else x
  else
    (s.logDefect (pageEntry st pg)).updMc st fun m => { m with
      copying := m.copying ++ [pg], status := { m.status with remapBusy := true },
      spare := { m.spare with poolUsed := satInc m.spare.poolUsed }, errLog := errLog key 5 owner nsym }

/-- A correction of one to three symbols (R125). -/
def State.noteCorrection (s : State) (p : PartNo) (key nsym : Nat) : State :=
  let st := keyStack key
  let owner := (s.metaAt key).owner
  if nsym ≥ 3 then
    (s.updMc st fun m => { m with errCount := { m.errCount with ce3 := satInc m.errCount.ce3 },
                                  errLog := errLog key 2 owner 3 }).retirePage p key owner 3
  else
    let seen := s.hbm.mcs[st].history.contains (key % 2 ^ 28)
    let s1 := s.updMc st fun m => { m with
      errCount := { m.errCount with ce := satInc m.errCount.ce }, errLog := errLog key 1 owner nsym,
      history := if seen then m.history.filter (· != key % 2 ^ 28)
                 else (m.history ++ [key % 2 ^ 28]).drop (m.history.length - 1023) }
    if seen then s1.retirePage p key owner nsym else s1

/-- An uncorrectable codeword: zeros, poisoned, the page retired (R124, R125). A granule of the pool has no
device-local address: it is partition 0's (R135), and MEM_POISON_LOG takes no entry (DESIGN CHOICE, log 83). -/
def State.noteUncorrectable (s : State) (p : PartNo) (a : Option Nat) (key : Nat) : State :=
  let st := keyStack key
  let keep := a.any fun x => decide (x < 2 ^ 28)
  let tag := BitVec.ofNat 2 p.val
  let s1 := (s.setGranule key (zeros 256)).setMeta key
    { wipeGen := s.genOf p keep, owner := tag, poison := true, keep := keep, poisonSrc := 1 }
  let s2 := s1.updMc st fun m => { m with errCount := { m.errCount with ue := satInc m.errCount.ue },
                                          errLog := errLog key 3 tag 0 }
  let s3 := s2.eventPart p 0x0202 st.val
  (match a with
    | some x => s3.notePoison p x st 1
    | none => s3).retirePage p key tag 0

/-- The metadata word (R123). -/
def Meta.word (m : Meta) : BitVec 32 :=
  packFields [(0, 4, m.wipeGen.toNat), (4, 2, m.owner.toNat), (6, 1, if m.poison then 1 else 0),
    (7, 1, if m.keep then 1 else 0), (8, 2, m.poisonSrc.toNat)]

/-- The fields of a metadata word (R123). -/
def Meta.ofWord (w : BitVec 32) : Meta :=
  { wipeGen := w.extractLsb' 0 4, owner := w.extractLsb' 4 2, poison := w.getLsbD 6, keep := w.getLsbD 7,
    poisonSrc := w.extractLsb' 8 2 }

/-- What stays wrong in a granule after a longer pattern decoded as a correctable one (R122). -/
def State.applyResidue (s : State) (key : Nat) (res : SymErrs) : State :=
  if res.isEmpty then s
  else
    let d : Block := BitVec.ofNat 2048 (Mem.readNat s.hbm.data (256 * key) 256)
    let m := Meta.ofWord (applyMetaSymbols (s.metaAt key).word res)
    (s.setGranule key (bytesOfNat 256 (applySymbols d res).toNat)).setMeta key m

/-- Apply a read's symbol errors: corrections are written back and counted, an uncorrectable pattern
poisons the granule (R122, R124, R125). `a` is the granule's device-local address; none in a stack's pool. -/
def State.decodeErrs (s : State) (p : PartNo) (a : Option Nat) (key : Nat) (errs : SymErrs) : State :=
  match rsDecode errs with
  | none => s.noteUncorrectable p a key
  | some f =>
    let s1 := s.applyResidue key (rsResidue errs f)
    if f.isEmpty then s1 else s1.noteCorrection p key f.length

/-- An owner mismatch: logged at the controller and to the chip owner (R27, R124, R197). -/
def State.noteMismatch (s : State) (key : Nat) : State :=
  let st := keyStack key
  let owner := (s.metaAt key).owner
  (s.updMc st fun m => { m with errLog := errLog key 4 owner 0 }).eventChip 0x0206 0
    (st.val + owner.toNat * 16)

/-- A read of a range notes the owner mismatches that it meets (R27, R124). -/
def State.meetOwners (s : State) (p : PartNo) (a n : Nat) : State :=
  (pieces 0 a n).foldl (fun s x =>
    match s.granuleAt p x.1 with
    | some key => if s.viewKey p key == .mismatch then s.noteMismatch key else s
    | none => s) s

/-- Whether a read of a range meets an owner mismatch (R124). -/
def State.ownerClash (s : State) (p : PartNo) (a n : Nat) : Bool :=
  (pieces 0 a n).any fun x => s.view p x.1 == .mismatch

/-! ## Sweeps -/

/-- Write the 16 granules of a page as zeros for a partition (R123, R132). -/
def State.zeroPage (s : State) (p : PartNo) (stack page : Nat) (keep : Bool) : State :=
  let m : Meta := { wipeGen := s.genOf p keep, owner := BitVec.ofNat 2 p.val, keep := keep }
  let s1 := { s with hbm := { s.hbm with data := Mem.clear s.hbm.data (256 * granuleKey stack page 0) 4096 } }
  (List.range 16).foldl (fun s i => s.setMeta (granuleKey stack page i) m) s1

/-- Pages of a partition's running sweep that are still to be written (R132). -/
def State.sweepTotal (s : State) (p : PartNo) : Nat := s.placement.pages p.val - dumpPages

/-- The number of a swept page: stack × 2^24 + page. -/
def sweepKey (stack page : Nat) : Nat := stack * 2 ^ 24 + page

/-- SWEEPING of the stacks and of the partitions, from the partitions' running sweeps. A dump area lies on the
stacks of its partition's first field (R109, R114, R132, R142, R143). -/
def State.markSweeping (s : State) : State :=
  let pl := s.placement
  { s with
    parts := s.parts.map fun q => { q with gen := { q.gen with sweeping := q.sweep.isSome || q.dumpSweep.isSome } },
    hbm := { s.hbm with mcs := s.hbm.mcs.mapFinIdx fun i (m : Mc) _ =>
      { m with status := { m.status with sweeping := (List.finRange 4).any fun p =>
          ((s.part p).sweep.isSome && (pl.all || (pl.fields p.val).contains (i / 3)))
            || ((s.part p).dumpSweep.isSome && (pl.all || (pl.fields p.val).head? == some (i / 3))) } } } }

/-- The next generation upward that is not in LIVE (R131). -/
def nextGen (gen : BitVec 4) (live : BitVec 16) : Option (BitVec 4) :=
  ((List.range 16).map fun i => gen + BitVec.ofNat 4 (i + 1)).find? fun v => !live.getLsbD v.toNat

/-- Advance GEN and start the sweep; with every value in LIVE the advance waits for the running sweep
(R131, R132). -/
def State.advanceGen (s : State) (p : PartNo) : State :=
  let g := (s.part p).gen
  match nextGen g.gen g.live with
  | none => s.updPart p fun x => { x with genWait := true }
  | some v => (s.updPart p fun x => { x with
      genWait := false, sweep := some [],
      gen := { x.gen with gen := v, live := setBit x.gen.live v.toNat true, progress := 0 } }).markSweeping

/-- Advance DUMP_GEN and start the dump area's sweep; while an earlier one runs the advance waits for its end
(R131, R132). -/
def State.advanceDumpGen (s : State) (p : PartNo) : State :=
  if (s.part p).dumpSweep.isSome then s.updPart p fun x => { x with dumpGenWait := true }
  else (s.updPart p fun x => { x with
    dumpGenWait := false, dumpSweep := some [], gen := { x.gen with dumpGen := x.gen.dumpGen + 1 } }).markSweeping

/-- The end of a partition's sweep: LIVE is reduced to the current GEN (R132). -/
def State.endSweep (s : State) (p : PartNo) : State :=
  (s.updPart p fun x => { x with
    sweep := none, gen := { x.gen with progress := 0, live := BitVec.ofNat 16 (2 ^ x.gen.gen.toNat) } }).markSweeping

/-- Write a page of a running sweep; the last page ends it (R132). -/
def State.sweepOne (s : State) (p : PartNo) (stack page : Nat) (keep : Bool) : State :=
  let k := sweepKey stack page
  if keep then
    match (s.part p).dumpSweep with
    | none => s
    | some done =>
      if done.contains k then s
      else
        let d := insertNat k done
        let s1 := s.zeroPage p stack page true
        (s1.updPart p fun x => { x with dumpSweep := if d.length = dumpPages then none else some d }).markSweeping
  else
    match (s.part p).sweep with
    | none => s
    | some done =>
      if done.contains k then s
      else
        let d := insertNat k done
        let s1 := (s.zeroPage p stack page false).updPart p fun x => { x with
          sweep := some d, gen := { x.gen with progress := BitVec.ofNat 7 (128 * d.length / s.sweepTotal p) } }
        if d.length ≥ s.sweepTotal p then s1.endSweep p else s1

/-! ## Writes -/

/-- Bytes put into others from a place on. -/
def mergeBytes (old new : List Byte) (at_ : Nat) : List Byte :=
  old.take at_ ++ new ++ old.drop (at_ + new.length)

/-- Write a granule's bytes with the metadata of a write (R123, R126). -/
def State.commitGranule (s : State) (p : PartNo) (a key : Nat) (bs : List Byte) (poison : Bool) (src : BitVec 2) : State :=
  let keep := decide (a < 2 ^ 28)
  let s1 := (s.setGranule key (if poison then zeros 256 else bs)).setMeta key
    { wipeGen := s.genOf p keep, owner := BitVec.ofNat 2 p.val, poison := poison, keep := keep,
      poisonSrc := if poison then src else 0 }
  if poison && src == 2 then s1.notePoison p a (keyStack key) 2 else s1

/-- Perform a write of at most one granule, with the sweep's write of its page first (R118, R126, R132).
The second result says that the write met an owner mismatch and was discarded (R27). -/
def State.writeGranule (s : State) (p : PartNo) (a : Nat) (bs : List Byte) (poison : Bool)
    (merge : List Byte → List Byte) : State × Bool :=
  match s.placement.locate p.val (a / 4096) with
  | none => (s, false)
  | some (st, pg) =>
    let key := granuleKey st pg (a / 256 % 16)
    let s1 := s.sweepOne p st pg (decide (a / 4096 < dumpPages))
    match s1.viewKey p key with
    | .mismatch => (s1.noteMismatch key, true)
    | v =>
      if bs.length = 256 ∧ a % 256 = 0 then (s1.commitGranule p a key (merge bs) poison 2, false)
      else match v with
      | .poison => (s1.commitGranule p a key [] true (if poison then 2 else (s1.metaAt key).poisonSrc), false)
      | .data k => (s1.commitGranule p a key (mergeBytes (Mem.read s1.hbm.data (256 * k) 256)
          (merge bs) (a % 256)) poison 2, false)
      | _ => (s1.commitGranule p a key (mergeBytes (zeros 256) (merge bs) (a % 256)) poison 2, false)

/-- Firmware's or a host's write of a range to stacked memory, granule by granule. -/
def State.stackWrite (s : State) (p : PartNo) (a : Nat) (bs : List Byte) (poison : Bool) : State :=
  (pieces 0 a bs.length).foldl (fun s x =>
    (s.writeGranule p x.1 ((bs.drop (x.1 - a)).take x.2) poison id).1) s

/-- FP32 elements of 4 bytes added pairwise, rounded to nearest even (R120). -/
def raddBytes (old new : List Byte) : List Byte :=
  ((List.range (new.length / 4)).map fun i =>
    let f (l : List Byte) : BitVec 32 := wordOfBytes 32 ((l.drop (4 * i)).take 4)
    bytesOfNat 4 (fp32Add (f old) (f new)).1.toNat).flatten

/-- A RADD of at most one granule of stacked memory (R120, R126). -/
def State.raddGranule (s : State) (p : PartNo) (a : Nat) (bs : List Byte) (poison : Bool) : State × Bool :=
  match s.placement.locate p.val (a / 4096) with
  | none => (s, false)
  | some (st, pg) =>
    let key := granuleKey st pg (a / 256 % 16)
    let s1 := s.sweepOne p st pg (decide (a / 4096 < dumpPages))
    let put (old : List Byte) : State × Bool :=
      (s1.commitGranule p a key
        (mergeBytes old (raddBytes (old.drop (a % 256)) bs) (a % 256)) poison 2, false)
    match s1.viewKey p key with
    | .mismatch => (s1.noteMismatch key, true)
    | .poison => (s1.commitGranule p a key [] true (if poison then 2 else (s1.metaAt key).poisonSrc), false)
    | .data k => put (Mem.read s1.hbm.data (256 * k) 256)
    | _ => put (zeros 256)

/-! ## Reads and writes of any space -/

/-- Bytes of a space of a partition and their poison (R110, R137). -/
def State.spaceRead (s : State) (p : PartNo) (space : BitVec 2) (unit off n : Nat) : List Byte × Bool :=
  if space = 0 then s.stackRead p off n
  else (Mem.read s.sram (s.spaceAt p space unit off) n, s.sramPoisoned (s.spaceAt p space unit off) n)

/-- Put bytes into a space of a partition; poison goes to whole lines of local memory (R105, R126). -/
def State.spaceWrite (s : State) (p : PartNo) (space : BitVec 2) (unit off : Nat) (bs : List Byte)
    (poison : Bool) : State :=
  if space = 0 then s.stackWrite p off bs poison
  else (pieces space off bs.length).foldl (fun s x =>
    s.putSram (s.spaceAt p space unit x.1) ((bs.drop (x.1 - off)).take x.2) poison) s

end Sys2Proof.Machine
end

