-- ==== Sys2Proof/Machine/Mesh.lean ====
section
/-! DEFINITION. The mesh: nodes, edge attachments, planes, channels and routes (R21 to R27), the order among its
transactions (R25, R94, R119), and requests as scratchpad and cluster memory perform them (R93, R120). -/

namespace Sys2Proof.Machine

/-! ## Places -/

/-- A mesh node: column 0 to 7 and row 0 to 3 (R21). -/
structure Node where
  col : Nat
  row : Nat
  deriving DecidableEq, Repr

/-- The node of a device-wide cluster: physical cluster k of field f (R21). The physical number is the device-wide
one, counted before any retirement (R15; DEDUCED, log 82). -/
def clusterNode (cl : Fin 32) : Node :=
  { col := 2 * (cl.val / 8) + cl.val % 8 % 2, row := cl.val % 8 / 2 }

/-- The node of memory controller `m` (R22). -/
def mcNode (m : Fin 12) : Node :=
  match m.val % 3 with
  | 0 => ⟨2 * (m.val / 3), 0⟩
  | 1 => ⟨2 * (m.val / 3) + 1, 0⟩
  | _ => ⟨2 * (m.val / 3), 3⟩

/-- The node of port `n`'s local interface (R22, R274). -/
def portNode (n : Fin 20) : Node :=
  if n.val < 8 then ⟨n.val, 0⟩
  else if n.val < 16 then ⟨n.val - 8, 3⟩
  else match n.val with
    | 16 => ⟨1, 3⟩
    | 17 => ⟨7, 3⟩
    | 18 => ⟨3, 3⟩
    | _ => ⟨5, 3⟩

/-- The node of a PCI Express port: A or, `true`, B (R22). -/
def pcieNode (b : Bool) : Node := if b then ⟨7, 1⟩ else ⟨0, 1⟩

/-- The nodes of the CP complex's two attachments (R22). -/
def cpNode (second : Bool) : Node := if second then ⟨7, 2⟩ else ⟨0, 2⟩

/-- The numbers passed on the way from `a` to `b`, the end among them. -/
def stepsTo (a b : Nat) : List Nat :=
  if a ≤ b then (List.range (b - a)).map (a + 1 + ·) else (List.range (a - b)).map (a - 1 - ·)

/-- The nodes of a route after its first: along columns first, then along rows (R24, R26). -/
def meshRoute (a b : Node) : List Node :=
  (stepsTo a.col b.col).map (fun c => ⟨c, a.row⟩) ++ (stepsTo a.row b.row).map fun r => ⟨b.col, r⟩

/-- Router hops between two nodes (R26). -/
def meshHops (a b : Node) : Nat := (meshRoute a b).length

/-- Stitching lines, between columns 1 and 2, 3 and 4, 5 and 6, that a route crosses (R21). -/
def stitchesCrossed (a b : Node) : Nat :=
  ([1, 3, 5].filter fun c => decide (min a.col b.col ≤ c) && decide (c < max a.col b.col)).length

/-- NCLK cycles of a transaction without contention, over `edges` edge attachments (R26). -/
def meshCycles (a b : Node) (edges : Nat) : Nat := 2 * meshHops a b + 2 * stitchesCrossed a b + edges

/-- The port whose local interface is nearest a node, by hops; ties go to the lower number (R111, R290; DEDUCED,
log 82). -/
def nearestPort (n : Node) : Fin 20 :=
  (List.finRange 20).foldl (fun (best : Fin 20) q =>
    if meshHops (portNode q) n < meshHops (portNode best) n then q else best) 0

/-! ## Planes, channels and order -/

/-- The channels of a plane, as the packet classes (R24, R275). -/
inductive Channel where
  | req | rsp | col | ctl
  deriving DecidableEq, Repr

/-- The channel of a packet class (R24). -/
def Channel.ofClass (c : BitVec 2) : Channel :=
  match c.toNat with
  | 0 => .req
  | 1 => .rsp
  | 2 => .col
  | _ => .ctl

/-- What R25 orders among: source node, destination node, plane and channel. -/
structure MeshFlow where
  src : Node
  dst : Node
  plane : Nat
  chan : Channel
  deriving DecidableEq, Repr

/-- The plane of a stacked-memory transaction: bits [11:8] of its device-local address (R23, R116). -/
def stackPlane (a : Nat) : Nat := a / 256 % 16

/-- The plane of a stream-queue word (R23). -/
def wordPlane (core queue : Nat) : Nat := (core + queue) % 16

/-- The plane of a CTL transaction (R23). -/
def ctlPlane : Nat := 0

/-- The node of a core of a partition. -/
def State.coreNode (s : State) (p : PartNo) (k : Nat) : Node := clusterNode (s.cluster p (k / 32))

/-- The node of the memory controller that holds a device-local address. -/
def State.addrNode (s : State) (p : PartNo) (a : Nat) : Node :=
  match s.placement.locate p.val (a / 4096) with
  | some (m, _) => mcNode (toFin 12 m)
  | none => mcNode 0

/-- The node of a place in a partition's space (R21, R22, R110). -/
def State.spaceNode (s : State) (p : PartNo) (space : BitVec 2) (unit off : Nat) : Node :=
  if space = 0 then s.addrNode p off
  else if space = 1 then s.coreNode p unit
  else clusterNode (s.cluster p unit)

/-- The node at which a requester enters the mesh (R22). -/
def State.srcNode (s : State) (x : MeshSrc) : Node :=
  match x with
  | .core p k => s.coreNode p k.val
  | .dma cl _ => clusterNode cl
  | .fabric n => portNode n
  | .host b => pcieNode b
  | .queue p k _ => s.coreNode p k.val
  | .cp => cpNode false

/-- The flow of a request on the mesh; none where no rule gives its plane (R23, R25; log 82). -/
def State.reqFlow (s : State) (r : MeshReq) : Option MeshFlow :=
  if r.space = 0 then
    some { src := s.srcNode r.src, dst := s.addrNode r.part r.addr, plane := stackPlane r.addr, chan := .req }
  else none

/-- The place at which R119 orders a request: its granule, or the line of local memory. -/
def reqPlace (r : MeshReq) : BitVec 2 × Nat × Nat :=
  (r.space, if r.space = 0 then 0 else r.unit, r.addr / (if r.space = 0 then 256 else 64))

/-- Whether request `x`, sent before `r`, is to be performed before it: the same place, and the same source or the
same flow (R25, R119). -/
def State.orderedReq (s : State) (x r : MeshReq) : Bool :=
  x.part == r.part && reqPlace x == reqPlace r
    && (x.src == r.src || (s.reqFlow r).any fun f => s.reqFlow x == some f)

/-- Whether a request is on the mesh and overtakes none that R25 or R119 orders before it. -/
def State.mayPerform (s : State) (r : MeshReq) : Bool := (s.mesh.find? fun x => s.orderedReq x r) == some r

/-- Whether a write of a source to some granule of a range waits on the mesh: a later read of the source there waits
for it (R119). -/
def State.readWaits (s : State) (src : MeshSrc) (p : PartNo) (a n : Nat) : Bool :=
  s.mesh.any fun r => r.src == src && r.part == p && r.space == 0
    && decide (a / 256 * 256 < r.addr + r.bytes.length) && decide (r.addr / 256 * 256 < a + n)

/-! ## Packets at the local interfaces -/

/-- The fields of a WRITE, RADD, READ or MWRITE descriptor as an address operand in the destination
partition (R110, R277). -/
def Pkt.operand (p : Pkt) : AddrOp :=
  { offset := Pkt.field p 0 0 40, device := 0, part := 0, space := BitVec.ofNat 2 (Pkt.field p 0 40 2),
    rsvd := 0, loc := true }

/-- The destination partition of a packet. -/
def pktPart (p : Pkt) : PartNo := toFin 4 p.dpart.toNat

/-- The node of a requesting unit (R294). -/
def State.unitNode (s : State) (p : PartNo) (unit : Nat) : Node :=
  if unit < 0x400 then s.coreNode p unit
  else if unit < 0x800 then clusterNode (s.cluster p (unit - 0x400))
  else cpNode false

/-- The node of a packet's target: the first granule or line of a request, the unit or the queue that an answer names,
the queue of a word; the CP for a BARRIER and for what the port itself consumes (R290; log 82). -/
def State.pktNode (s : State) (p : Pkt) : Node :=
  let pt := pktPart p
  let a := Pkt.operand p
  let queue := s.coreNode pt (p.endpoint.toNat % 1024)
  match Channel.ofClass p.cls with
  | .req => s.spaceNode pt a.space a.unit a.byte
  | .rsp => if p.type.toNat < 3 then s.unitNode pt (Pkt.field p 0 0 16) else queue
  | .col => queue
  | .ctl => if p.type = 2 ∨ p.type = 3 then queue else cpNode false

/-- The local interface at which a packet for the package leaves the switch (R290), or through which a transfer to
another of its partitions goes (R111). -/
def State.ejectPort (s : State) (p : Pkt) : Fin 20 := nearestPort (s.pktNode p)

/-- The flow of a packet of queue words: from its producer's node within a partition, else from the local interface
that re-injects it (R23, R25, R111, R290). -/
def State.wordFlow (s : State) (p : Pkt) : MeshFlow :=
  let core := Pkt.field p 6 0 10
  { src := if s.device = some p.src ∧ p.spart = p.dpart then s.coreNode (pktPart p) core else portNode (s.ejectPort p),
    dst := s.pktNode p, plane := wordPlane core (p.endpoint.toNat / 1024), chan := .col }

/-! ## Writes before a queue word -/

/-- The multicast slot that turns a core's PUT to a device and partition into MWRITE (R326). -/
def State.mcastSlot (s : State) (p : PartNo) (k : Fin 1024) (a : AddrOp) : Option ColMcast :=
  (s.part p).colMcast.toList.find? fun m =>
    m.armed && m.core == BitVec.ofNat 10 k.val && !a.loc && m.device == a.device && m.part == a.part

/-- The writes of a core to the scratchpad of a core that have not been performed: a queue word that the core sends
after them is not seen before them (R94). -/
def State.writesTo (s : State) (p : PartNo) (k : Fin 1024) (goal : QPeer) : List WriteRef :=
  let toGoal (space : BitVec 2) (unit : Nat) : Bool := space == 1 && unit == goal.core.toNat
  ((s.mesh.filter fun r => r.src == .core p k && r.part.val == goal.part.toNat && s.device == some goal.device
      && toGoal r.space r.unit).map .mesh)
    ++ s.reply.filterMap fun e => match e.2.use with
      | some (.put j _ addr _) =>
        let a := AddrOp.ofWord addr
        if j = k ∧ e.1 / 4096 = p.val * 4096 + k.val ∧ toGoal a.space a.unit = true ∧ !a.loc ∧ a.part = goal.part
            ∧ (a.device = goal.device ∨ (s.mcastSlot p k a).isSome) then some (.reply e.1 e.2.gen) else none
      | _ => none

/-- Whether a write has still to be performed or answered. -/
def State.refPending (s : State) (w : WriteRef) : Bool :=
  match w with
  | .mesh r => s.mesh.contains r
  | .reply key gen =>
    let x := Table.get {} s.reply key
    x.use.isSome && x.gen == gen

/-- Whether earlier writes of a queue word's sender hold its packet back (R94). -/
def State.wordHeld (s : State) (p : Pkt) : Bool :=
  s.wordAfter.any fun e => e.1 == p && e.2.any s.refPending

/-- Forget what held a packet back once it has gone on. -/
def State.wordGone (s : State) (p : Pkt) : State :=
  { s with wordAfter := s.wordAfter.filter fun e => e.1 != p }

/-! ## Local memory -/

/-- Whether the target of a request in SPACE 1 or 2 belongs to the partition of its tag (R27, R110). -/
def State.unitOk (s : State) (r : MeshReq) : Bool :=
  decide (r.unit < (s.part r.part).clusters.length * (if r.space = 1 then 32 else 1))

/-- Add a RADD's elements into a line of scratchpad or cluster memory; a poisoned source poisons the line (R120). -/
def State.raddLine (s : State) (r : MeshReq) : State :=
  let a := s.spaceAt r.part r.space r.unit r.addr
  let s1 := { s with sram := Mem.write s.sram a (raddBytes (Mem.read s.sram a r.bytes.length) r.bytes) }
  if r.poison then { s1 with sramPoison := insertNat (a / 64) s1.sramPoison } else s1

/-- Perform a write or RADD at a scratchpad or cluster memory (R93, R105, R120). -/
def State.landLocal (s : State) (r : MeshReq) : State :=
  if r.radd then s.raddLine r else s.putSram (s.spaceAt r.part r.space r.unit r.addr) r.bytes r.poison

/-- Perform every write to scratchpad and cluster memory that some cores of a partition still have on the mesh, in the
order in which they were sent: a barrier's release makes them visible (R95). -/
def State.landAll (s : State) (p : PartNo) (ks : List (Fin 1024)) : State :=
  let mine (r : MeshReq) : Bool := r.space != 0 && r.part == p && ks.any fun k => r.src == .core p k
  (s.mesh.filter mine).foldl State.landLocal { s with mesh := s.mesh.filter fun r => !mine r }

end Sys2Proof.Machine
end

