-- ==== Sys2Proof/Machine/Scalar.lean ====
section
/-! DEFINITION. The scalar instructions of a core (R81, R82): arithmetic, loads and stores, control
flow, core registers, and the software trap. -/

namespace Sys2Proof.Machine

/-- An ALU function: g[d] becomes the function of g[a] and g[b] (R81, R82). -/
def aluBody (f : Word → Word → Word) (d a b : Reg) : Body :=
  pureBody fun c => .done (c.setGr d (f (c.gr a) (c.gr b)))

/-- Issue an instruction that changes only its core. -/
def alu (i : Issue) (instr : Instr) (f : Word → Word → Word) (d a b : Reg) (s : State) : Out :=
  .next (s.issue i instr (aluBody f d a b))

/-- The shift amount of R82: g[b][5:0]. -/
def shAmt (b : Word) : Nat := b.toNat % 64

/-- Effect: none (R81). -/
def execNop (i : Issue) (rsvd : BitVec 26) (s : State) : Out :=
  .next (s.issue i (.nop i rsvd) (rsvdBody (rsvd == 0) (pureBody .done)))

/-- g[d] = g[a] + g[b], modulo 2^64 (R82). -/
def execAdd (i : Issue) (d a b : Reg) (s : State) : Out := alu i (.add i d a b) (· + ·) d a b s

/-- g[d] = g[a] - g[b], modulo 2^64 (R82). -/
def execSub (i : Issue) (d a b : Reg) (s : State) : Out := alu i (.sub i d a b) (· - ·) d a b s

/-- Bitwise AND (R82). -/
def execAnd (i : Issue) (d a b : Reg) (s : State) : Out := alu i (.and i d a b) (· &&& ·) d a b s

/-- Bitwise OR (R82). -/
def execOr (i : Issue) (d a b : Reg) (s : State) : Out := alu i (.or i d a b) (· ||| ·) d a b s

/-- Bitwise XOR (R82). -/
def execXor (i : Issue) (d a b : Reg) (s : State) : Out := alu i (.xor i d a b) (· ^^^ ·) d a b s

/-- Shift left by g[b][5:0] (R82). -/
def execShl (i : Issue) (d a b : Reg) (s : State) : Out :=
  alu i (.shl i d a b) (fun x y => x <<< shAmt y) d a b s

/-- Logical shift right by g[b][5:0] (R82). -/
def execShr (i : Issue) (d a b : Reg) (s : State) : Out :=
  alu i (.shr i d a b) (fun x y => x >>> shAmt y) d a b s

/-- Arithmetic shift right by g[b][5:0] (R82). -/
def execSar (i : Issue) (d a b : Reg) (s : State) : Out :=
  alu i (.sar i d a b) (fun x y => x.sshiftRight (shAmt y)) d a b s

/-- The low 64 bits of the product (R82). -/
def execMul (i : Issue) (d a b : Reg) (s : State) : Out := alu i (.mul i d a b) (· * ·) d a b s

/-- The high 64 bits of the unsigned product (R82). -/
def execMulhu (i : Issue) (d a b : Reg) (s : State) : Out :=
  alu i (.mulhu i d a b) (fun x y => BitVec.ofNat 64 (x.toNat * y.toNat / 2 ^ 64)) d a b s

/-- 1 if g[a] < g[b] signed, else 0 (R82). -/
def execSlt (i : Issue) (d a b : Reg) (s : State) : Out :=
  alu i (.slt i d a b) (fun x y => if x.slt y then 1 else 0) d a b s

/-- 1 if g[a] < g[b] unsigned, else 0 (R82). -/
def execSltu (i : Issue) (d a b : Reg) (s : State) : Out :=
  alu i (.sltu i d a b) (fun x y => if x.ult y then 1 else 0) d a b s

/-- g[d] = g[a] + sext(imm16) (R81). -/
def execAddi (i : Issue) (d a : Reg) (imm : BitVec 16) (s : State) : Out :=
  .next (s.issue i (.addi i d a imm) (pureBody fun c => .done (c.setGr d (c.gr a + sext imm))))

/-- g[d] = g[a] and imm16 zero-extended (R81). -/
def execAndi (i : Issue) (d a : Reg) (imm : BitVec 16) (s : State) : Out :=
  .next (s.issue i (.andi i d a imm) (pureBody fun c => .done (c.setGr d (c.gr a &&& imm.setWidth 64))))

/-- g[d] = g[a] or imm16 zero-extended (R81). -/
def execOri (i : Issue) (d a : Reg) (imm : BitVec 16) (s : State) : Out :=
  .next (s.issue i (.ori i d a imm) (pureBody fun c => .done (c.setGr d (c.gr a ||| imm.setWidth 64))))

/-- g[d] = g[a] << imm16[5:0]; imm16[15:6] is RSVD (R81). -/
def execShli (i : Issue) (d a : Reg) (imm : BitVec 16) (s : State) : Out :=
  .next (s.issue i (.shli i d a imm) (rsvdBody (imm.toNat / 64 == 0)
    (pureBody fun c => .done (c.setGr d (c.gr a <<< (imm.toNat % 64))))))

/-- g[d] = sext(imm16) << 16 (R81). -/
def execLui (i : Issue) (d : Reg) (imm : BitVec 16) (s : State) : Out :=
  .next (s.issue i (.lui i d imm) (pureBody fun c => .done (c.setGr d (sext imm <<< 16))))

/-- Whether an access to core-local bytes is held back for an earlier outstanding matrix operation:
it touches bytes that the operation writes, or writes bytes that it reads (R78). -/
def Core.mmHolds (c : Core) (a n : Nat) (writes : Bool) : Bool :=
  let r : Region := ⟨a, 0, 1, n⟩
  c.mms.any fun m =>
    let d := MmDesc.ofBits m.desc
    let β := match pairingOf d.aFmt d.bFmt with
      | some pr => pr.block
      | none => 0
    d.dOverlaps r
      || (writes && (r.overlaps d.regA || r.overlaps d.regB || (d.cEn && r.overlaps d.regC)
          || (β != 0 && (r.overlaps (d.regSa β) || r.overlaps (d.regSb β)))))

/-- An access of `n` bytes to core-local memory at an address aligned to `al`: the address fault, the
wait of R78, or the body on the place in the SRAM map (R79, R81). -/
def localBody (addr : Core → Word) (n al : Nat) (writes : Bool) (p : PartNo) (k : Fin 1024)
    (b : Nat → Body) : Body := fun s c =>
  let a := (addr c).toNat
  if a % al ≠ 0 then (s, .fault 3 0x0207 (addr c))
  else match s.localAt p k a n with
    | none => (s, .fault 3 0x0207 (addr c))
    | some key => if c.mmHolds a n writes then (s, .wait 1) else b key s c

/-- LD's body (R81, R105). -/
def ldBody (i : Issue) (d a : Reg) (imm : BitVec 16) : Body :=
  localBody (fun c => c.gr a + sext imm) 8 8 false i.part i.core fun key s c =>
    if s.sramPoisoned key 8 then (s, .poisoned 3)
    else (s, .done (c.setGr d (BitVec.ofNat 64 (Mem.readNat s.sram key 8))))

/-- Load 8 aligned bytes; a poisoned line raises the poison fault (R81, R105). -/
def execLd (i : Issue) (d a : Reg) (imm : BitVec 16) (s : State) : Out :=
  .next (s.issue i (.ld i d a imm) (ldBody i d a imm))

/-- ST's body (R81, R105). -/
def stBody (i : Issue) (d a : Reg) (imm : BitVec 16) : Body :=
  localBody (fun c => c.gr a + sext imm) 8 8 true i.part i.core fun key s c =>
    (s.writeSram key (bytesOfNat 8 (c.gr d).toNat), .done c)

/-- Store 8 aligned bytes (R81). -/
def execSt (i : Issue) (d a : Reg) (imm : BitVec 16) (s : State) : Out :=
  .next (s.issue i (.st i d a imm) (stBody i d a imm))

/-- A branch: taken to PC + 4 × sext(imm16), its target checked (R77, R81). -/
def branchBody (taken : Core → Bool) (imm : BitVec 16) : Body :=
  pureBody fun c => if taken c then .jump c (c.pc + 4 * sext imm) else .done c

/-- Branch if g[a] = g[b] (R81). -/
def execBeq (i : Issue) (a b : Reg) (imm : BitVec 16) (s : State) : Out :=
  .next (s.issue i (.beq i a b imm) (branchBody (fun c => c.gr a == c.gr b) imm))

/-- Branch if g[a] ≠ g[b] (R81). -/
def execBne (i : Issue) (a b : Reg) (imm : BitVec 16) (s : State) : Out :=
  .next (s.issue i (.bne i a b imm) (branchBody (fun c => c.gr a != c.gr b) imm))

/-- Branch if g[a] < g[b], signed (R81). -/
def execBlt (i : Issue) (a b : Reg) (imm : BitVec 16) (s : State) : Out :=
  .next (s.issue i (.blt i a b imm) (branchBody (fun c => (c.gr a).slt (c.gr b)) imm))

/-- Branch if g[a] < g[b], unsigned (R81). -/
def execBltu (i : Issue) (a b : Reg) (imm : BitVec 16) (s : State) : Out :=
  .next (s.issue i (.bltu i a b imm) (branchBody (fun c => (c.gr a).ult (c.gr b)) imm))

/-- g[d] = PC + 4; PC = PC + 4 × offset (R81). -/
def execJal (i : Issue) (d : Reg) (offset : BitVec 21) (s : State) : Out :=
  .next (s.issue i (.jal i d offset) (pureBody fun c => .jump (c.setGr d (c.pc + 4)) (c.pc + 4 * sext offset)))

/-- g[d] = PC + 4; PC = g[a] (R81). -/
def execJr (i : Issue) (d a : Reg) (rsvd : BitVec 16) (s : State) : Out :=
  .next (s.issue i (.jr i d a rsvd) (rsvdBody (rsvd == 0)
    (pureBody fun c => .jump (c.setGr d (c.pc + 4)) (c.gr a))))

/-- MDLOAD's body (R81, R105). -/
def mdloadBody (i : Issue) (slot : Fin 8) (a : Reg) (imm : BitVec 16) : Body :=
  localBody (fun c => c.gr a + sext imm) 128 128 false i.part i.core fun key s c =>
    if s.sramPoisoned key 128 then (s, .poisoned 3)
    else (s, .done { c with slots := c.slots.set slot (BitVec.ofNat 1024 (Mem.readNat s.sram key 128)) })

/-- Copy 128 aligned bytes into a descriptor slot (R81). -/
def execMdload (i : Issue) (slot : Fin 8) (rsvd : BitVec 2) (a : Reg) (imm : BitVec 16) (s : State) : Out :=
  .next (s.issue i (.mdload i slot rsvd a imm) (rsvdBody (rsvd == 0) (mdloadBody i slot a imm)))

/-- WAITM's body (R81). -/
def waitmBody (imm : BitVec 16) : Body := pureBody fun c =>
  if imm.toNat % 16 > 8 then .fault 2 0x0111 0
  else if c.mms.length ≤ imm.toNat % 16 then .done c else .wait 3

/-- Wait until at most imm16[3:0] matrix operations are outstanding (R81). -/
def execWaitm (i : Issue) (rsvd : BitVec 10) (imm : BitVec 16) (s : State) : Out :=
  .next (s.issue i (.waitm i rsvd imm) (rsvdBody (rsvd == 0) (waitmBody imm)))

/-- Whether a phase token is complete (R222). -/
def PhaseToken.isComplete (t : PhaseToken) : Bool := t.armed && decide (t.target.toNat ≤ t.count.toNat)

/-- A partition's phase token. -/
def State.token (s : State) (p : PartNo) (t : Nat) : PhaseToken := Table.get {} (s.part p).tokens t

/-- WAITT's body (R223). -/
def waittBody (p : PartNo) (imm : BitVec 16) : Body := fun s c =>
  if (s.token p (imm.toNat % 1024)).isComplete then (s, .done c) else (s, .wait 3)

/-- Wait until a phase token is complete; imm16[15:10] is RSVD (R81, R223). -/
def execWaitt (i : Issue) (rsvd : BitVec 10) (imm : BitVec 16) (s : State) : Out :=
  .next (s.issue i (.waitt i rsvd imm)
    (rsvdBody (rsvd == 0 && imm.toNat / 1024 == 0) (waittBody i.part imm)))

/-- Whether a core's engines are enabled (R97). -/
def State.coreEnabled (s : State) (p : PartNo) (k : Fin 1024) : Bool :=
  s.clus[s.coreCluster p k].waves.getLsbD (k.val % 32 / 4)

/-- CORE_ISSUE as a reader sees it (R101). -/
def State.coreIssue (s : State) (p : PartNo) (k : Fin 1024) : CoreIssue :=
  let u := s.clus[s.coreCluster p k]
  { issueLevel := u.level, ramping := u.ramping, enabled := s.coreEnabled p k,
    wave := BitVec.ofNat 3 (k.val % 32 / 4) }

/-- CORE_ID: the core's logical numbers, fixed at the partition reset (R15, R16, R101). -/
def State.coreId (s : State) (p : PartNo) (k : Fin 1024) : CoreId :=
  let cl := s.coreCluster p k
  { coreIndex := BitVec.ofNat 5 (k.val % 32), logicalCluster := BitVec.ofNat 5 (k.val / 32), partition := BitVec.ofNat 2 p.val,
    field := BitVec.ofNat 2 (cl.val / 8), fieldCluster := BitVec.ofNat 3 (cl.val % 8) }

/-- A core register as CSRR returns it; none for an offset that names no register. CORE_PC is read as
the offset of the instruction after the CSRR (R100, R101; DEDUCED, log 16). -/
def State.coreReg (s : State) (p : PartNo) (k : Fin 1024) (c : Core) (index : Nat) : Option Word :=
  match index with
  | 0 => some ((s.coreId p k).word.setWidth 64)
  | 1 => some (c.ctrl.word.setWidth 64)
  | 2 => some ((c.status (!c.mms.isEmpty && !s.coreEnabled p k)).word.setWidth 64)
  | 3 => some (c.pc + 4)
  | 4 => some c.progress
  | 5 => some (c.fault.word.setWidth 64)
  | 6 => some c.faultPc
  | 7 => some c.faultAddr
  | 8 => some (c.arith.word.setWidth 64)
  | 9 => some (c.arithCtrl.word.setWidth 64)
  | 10 => some (c.vec.word.setWidth 64)
  | 11 => some c.seed
  | 12 => some ((s.coreIssue p k).word.setWidth 64)
  | 13 => some (c.poison.word.setWidth 64)
  | _ => none

/-- g[d] = the core register at offset imm16 × 8, zero-extended (R81, R100). -/
def execCsrr (i : Issue) (d : Reg) (rsvd : BitVec 5) (imm : BitVec 16) (s : State) : Out :=
  .next (s.issue i (.csrr i d rsvd imm) (rsvdBody (rsvd == 0) fun s c =>
    match s.coreReg i.part i.core c imm.toNat with
    | some x => (s, .done (c.setGr d x))
    | none => (s, .fault 2 0x0111 0)))

/-- Whether a flag of CORE_ARITH_STATUS stands whose trap bit is 1 (R74). -/
def Core.arithTraps (c : Core) : Bool :=
  (c.arithCtrl.satTrap && c.arith.laSat != 0) || (c.arithCtrl.invalidTrap && c.arith.invalid != 0)
    || (c.arithCtrl.inexactTrap && c.arith.laInexact != 0) || (c.arithCtrl.wbOvfTrap && c.arith.wbOvf != 0)

/-- Write 1 to clear the flags of CORE_ARITH_STATUS (R73). -/
def CoreArithStatus.clear (r : CoreArithStatus) (w : BitVec 32) : CoreArithStatus :=
  { laSat := r.laSat &&& ~~~ w.extractLsb' 0 4, laInexact := r.laInexact &&& ~~~ w.extractLsb' 4 4,
    invalid := r.invalid &&& ~~~ w.extractLsb' 8 4, nanOut := r.nanOut &&& ~~~ w.extractLsb' 12 4,
    wbOvf := r.wbOvf &&& ~~~ w.extractLsb' 16 4 }

/-- Write 1 to clear the flags of CORE_VEC_STATUS (R101). -/
def CoreVecStatus.clear (r : CoreVecStatus) (w : BitVec 32) : CoreVecStatus :=
  { vInvalid := r.vInvalid && !w.getLsbD 0, vDivzero := r.vDivzero && !w.getLsbD 1,
    vOverflow := r.vOverflow && !w.getLsbD 2, vUnderflow := r.vUnderflow && !w.getLsbD 3,
    vInexact := r.vInexact && !w.getLsbD 4 }

/-- Complete, and raise the arithmetic fault where a flag stands with its trap bit 1 (R74, and the step
ARITHMETIC_FAULT within CSRW of 95_what_each_step_holds.md). -/
def arithDone (c : Core) : CRes := if c.arithTraps then .doneFault c 6 0x0112 else .done c

/-- The core register at offset imm16 × 8 = g[a]; only three registers may be written (R81, R100). -/
def execCsrw (i : Issue) (rsvd : BitVec 5) (a : Reg) (imm : BitVec 16) (s : State) : Out :=
  .next (s.issue i (.csrw i rsvd a imm) (rsvdBody (rsvd == 0) (pureBody fun c =>
    let w : BitVec 32 := (c.gr a).setWidth 32
    match imm.toNat with
    | 8 => arithDone { c with arith := c.arith.clear w }
    | 9 => arithDone { c with arithCtrl := CoreArithCtrl.ofWord w }
    | 10 => .done { c with vec := c.vec.clear w }
    | _ => .fault 2 0x0111 0)))

/-- Raise the software fault with code imm16[7:0] in CORE_FAULT_ADDR (R81, R101, R102). -/
def execTrap (i : Issue) (rsvd : BitVec 10) (imm : BitVec 16) (s : State) : Out :=
  .next (s.issue i (.trap i rsvd imm) (rsvdBody (rsvd == 0)
    (pureBody fun _ => .fault 7 0x0113 (BitVec.ofNat 64 (imm.toNat % 256)))))

end Sys2Proof.Machine
end

