-- ==== Sys2Proof/Machine/VectorUnit.lean ====
section
/-! DEFINITION. The vector instructions of a core (R81, R83, R89 to R91). -/

namespace Sys2Proof.Machine

/-- Lane `n` of a vector register: bytes 4n to 4n + 3 (R77). -/
def lane (x : Block) (n : Nat) : BitVec 32 := x.extractLsb' (32 * n) 32

/-- A register of 64 lanes. -/
def ofLanes (f : Nat → BitVec 32) : Block :=
  BitVec.ofNat 2048 ((List.range 64).foldr (fun i a => (f i).toNat + 2 ^ 32 * a) 0)

/-- Add arithmetic flags to CORE_VEC_STATUS (R89, R101). -/
def CoreVecStatus.raise (r : CoreVecStatus) (f : FpFlags) : CoreVecStatus :=
  { vInvalid := r.vInvalid || f.invalid, vDivzero := r.vDivzero || f.divzero,
    vOverflow := r.vOverflow || f.overflow, vUnderflow := r.vUnderflow || f.underflow,
    vInexact := r.vInexact || f.inexact }

/-- Write a vector result: with a poisoned source the register is poisoned and its bytes are a free
value (R105). A poisoned source of a vector instruction, VST, QPUSH, PUT or RADD is no consumption: only VLD, QPOP, MMA, LD, MDLOAD
and DMAQ consume (the spec does not list them; DESIGN CHOICE, log 88). -/
def vecResult (s : State) (c : Core) (vd : Reg) (poisoned : Bool) (x : Block) (f : FpFlags) : State × CRes :=
  let c1 := { c with vec := c.vec.raise f }
  if poisoned then (s.bump, .done (c1.setVr vd (Config.freeBlock s.freeCtr) true))
  else (s, .done (c1.setVr vd x false))

/-- A lane-wise operation on registers (R83): `f` gives a lane's result and flags from the lane number. -/
def laneBody (f : Core → Nat → BitVec 32 × FpFlags) (vd : Reg) (srcs : List Reg) : Body := fun s c =>
  let fl := (List.range 64).foldl (fun a n => a.or (f c n).2) {}
  vecResult s c vd (srcs.any c.vpoison) (ofLanes fun n => (f c n).1) fl

/-- Issue a lane-wise operation of two registers (R83). -/
def lane2 (i : Issue) (instr : Instr) (f : BitVec 32 → BitVec 32 → BitVec 32 × FpFlags) (vd va vb : Reg)
    (s : State) : Out :=
  .next (s.issue i instr (laneBody (fun c n => f (lane (c.vr va) n) (lane (c.vr vb) n)) vd [va, vb]))

/-- Issue a lane-wise operation of one register (R83). -/
def lane1 (i : Issue) (instr : Instr) (f : BitVec 32 → BitVec 32 × FpFlags) (vd va : Reg) (s : State) : Out :=
  .next (s.issue i instr (laneBody (fun c n => f (lane (c.vr va) n)) vd [va]))

/-- vd = va + vb (R83). -/
def execVadd (i : Issue) (vd va vb : Reg) (s : State) : Out := lane2 i (.vadd i vd va vb) fp32Add vd va vb s

/-- vd = va - vb (R83). -/
def execVsub (i : Issue) (vd va vb : Reg) (s : State) : Out := lane2 i (.vsub i vd va vb) fp32Sub vd va vb s

/-- vd = va × vb (R83). -/
def execVmul (i : Issue) (vd va vb : Reg) (s : State) : Out := lane2 i (.vmul i vd va vb) fp32Mul vd va vb s

/-- vd = va × vb + vc, rounded once (R83). -/
def execVfma (i : Issue) (vd va vb vc : Reg) (s : State) : Out :=
  .next (s.issue i (.vfma i vd va vb vc) (laneBody
    (fun c n => fp32Fma (lane (c.vr va) n) (lane (c.vr vb) n) (lane (c.vr vc) n)) vd [va, vb, vc]))

/-- IEEE 754 minimum (R83). -/
def execVmin (i : Issue) (vd va vb : Reg) (s : State) : Out :=
  lane2 i (.vmin i vd va vb) (fp32Pick false) vd va vb s

/-- IEEE 754 maximum (R83). -/
def execVmax (i : Issue) (vd va vb : Reg) (s : State) : Out :=
  lane2 i (.vmax i vd va vb) (fp32Pick true) vd va vb s

/-- Magnitude (R83). -/
def execVabs (i : Issue) (vd va : Reg) (s : State) : Out := lane1 i (.vabs i vd va) fp32Abs vd va s

/-- Sign inverted (R83). -/
def execVneg (i : Issue) (vd va : Reg) (s : State) : Out := lane1 i (.vneg i vd va) fp32Neg vd va s

/-- 1 / va (R83, R89). -/
def execVrcp (i : Issue) (vd va : Reg) (s : State) : Out := lane1 i (.vrcp i vd va) fp32Rcp vd va s

/-- 1 / √va (R83, R89). -/
def execVrsq (i : Issue) (vd va : Reg) (s : State) : Out := lane1 i (.vrsq i vd va) fp32Rsq vd va s

/-- 2^va (R83, R89). -/
def execVexp2 (i : Issue) (vd va : Reg) (s : State) : Out := lane1 i (.vexp2 i vd va) fp32Exp2 vd va s

/-- log2 va (R83, R89). -/
def execVlog2 (i : Issue) (vd va : Reg) (s : State) : Out := lane1 i (.vlog2 i vd va) fp32Log2 vd va s

/-- One level of the tree: adjacent sums (R89). -/
def sumLevel : List (BitVec 32) → List (BitVec 32) × FpFlags
  | a :: b :: t =>
    let r := fp32Add a b
    let u := sumLevel t
    (r.1 :: u.1, r.2.or u.2)
  | l => (l, {})

/-- Six levels of the tree (R89). -/
def sumTree (l : List (BitVec 32)) : List (BitVec 32) × FpFlags :=
  (List.range 6).foldl (fun a _ => let r := sumLevel a.1; (r.1, a.2.or r.2)) (l, {})

/-- Lane 0 = the sum of va's lanes in the tree's order; the others +0 (R83, R89). -/
def execVrsum (i : Issue) (vd va : Reg) (s : State) : Out :=
  .next (s.issue i (.vrsum i vd va) fun s c =>
    let r := sumTree ((List.range 64).map (lane (c.vr va)))
    vecResult s c vd (c.vpoison va) ((r.1.headD 0).setWidth 2048) r.2)

/-- Every lane = g[va][31:0] (R83). -/
def execVbcast (i : Issue) (vd va : Reg) (rsvd : BitVec 10) (s : State) : Out :=
  .next (s.issue i (.vbcast i vd va rsvd) (rsvdBody (rsvd == 0)
    (pureBody fun c => .done (c.setVr vd (ofLanes fun _ => (c.gr va).setWidth 32) false))))

/-- vd = va, bit for bit, poison bit included (R83). -/
def execVmov (i : Issue) (vd va : Reg) (s : State) : Out :=
  .next (s.issue i (.vmov i vd va) (pureBody fun c => .done (c.setVr vd (c.vr va) (c.vpoison va))))

/-- A packed vector of elements of `w` bits (R43). -/
def packElems (w : Nat) (xs : List Nat) : Nat := xs.foldr (fun x a => x + 2 ^ w * a) 0

/-- Convert one element: a signalling NaN raises V_INVALID besides (R90, R101). -/
def cvtElem (src dst : NumFmt) (rnd : Rnd) (clamp : Bool) (x : Nat) : Nat × FpFlags :=
  let v := src.decode x
  let r := dst.convert rnd clamp v
  (r.1, { r.2 with invalid := r.2.invalid || v.isSnan })

/-- VCVT's body: the control word in g[vb], the index base in g[vc] (R90). -/
def vcvtBody (vd va vb vc : Reg) : Body := fun s c =>
  let w := c.gr vb
  let sf := bitsAt w.toNat 0 4
  let df := bitsAt w.toNat 4 4
  if sf > 9 ∨ df > 9 ∨ bitsAt w.toNat 8 2 = 3 ∨ bitsAt w.toNat 11 21 ≠ 0 then (s, .fault 2 0x0111 0)
  else
    let src := fmtOf sf
    let dst := fmtOf df
    let rs := (List.range 64).map fun n =>
      let q := BitVec.ofNat 64 (((c.gr vc).toNat + n) % 2 ^ 48)
      let r := srBits c.seed (w.extractLsb' 32 32) q
      cvtElem src dst ((Rnd.ofCode (bitsAt w.toNat 8 2) r).getD .rne) (w.getLsbD 10)
        (packedElem (c.vr va).toNat src.bits n)
    vecResult s c vd (c.vpoison va) (BitVec.ofNat 2048 (packElems dst.bits (rs.map (·.1))))
      (rs.foldl (fun a r => a.or r.2) {})

/-- Convert 64 elements between formats (R83, R90). -/
def execVcvt (i : Issue) (vd va vb vc : Reg) (s : State) : Out :=
  .next (s.issue i (.vcvt i vd va vb vc) (vcvtBody vd va vb vc))

/-- The bit place of XF value `k` of a register (R91). -/
def xfPlace (k : Nat) : Nat := 8 * (64 * (k / 3) + 20 * (k % 3))

/-- Twelve XF sums of two registers (R83, R91). -/
def execVxadd (i : Issue) (vd va vb : Reg) (s : State) : Out :=
  .next (s.issue i (.vxadd i vd va vb) fun s c =>
    let rs := (List.range 12).map fun k =>
      Xf.add (bitsAt (c.vr va).toNat (xfPlace k) 160) (bitsAt (c.vr vb).toNat (xfPlace k) 160)
    let x := (rs.zipIdx).foldl (fun a r => a + r.1.1.word * 2 ^ xfPlace r.2) 0
    let f : FpFlags := { invalid := rs.any (·.2.invalid), overflow := rs.any (·.2.sat),
                         inexact := rs.any (·.2.inexact) }
    vecResult s c vd (c.vpoison va || c.vpoison vb) (BitVec.ofNat 2048 x) f)

/-- VLD's body (R81, R105, R106). -/
def vldBody (i : Issue) (d a : Reg) (imm : BitVec 16) : Body :=
  localBody (fun c => c.gr a + sext imm) 256 64 false i.part i.core fun key s c =>
    if s.sramPoisoned key 256 then
      (s.bump, consumeDone c (c.setVr d (Config.freeBlock s.freeCtr) true) 1)
    else (s, .done (c.setVr d (BitVec.ofNat 2048 (Mem.readNat s.sram key 256)) false))

/-- Load 256 bytes, 64-byte aligned, into a vector register (R81). -/
def execVld (i : Issue) (d a : Reg) (imm : BitVec 16) (s : State) : Out :=
  .next (s.issue i (.vld i d a imm) (vldBody i d a imm))

/-- VST's body (R81, R105). -/
def vstBody (i : Issue) (d a : Reg) (imm : BitVec 16) : Body :=
  localBody (fun c => c.gr a + sext imm) 256 64 true i.part i.core fun key s c =>
    (s.putSram key (bytesOfNat 256 (c.vr d).toNat) (c.vpoison d),
     .done (if c.vpoison d then c.emit else c))

/-- Store a vector register as 256 bytes, 64-byte aligned (R81). -/
def execVst (i : Issue) (d a : Reg) (imm : BitVec 16) (s : State) : Out :=
  .next (s.issue i (.vst i d a imm) (vstBody i d a imm))

end Sys2Proof.Machine
end

