-- ==== Sys2Proof/Machine/MatrixOps.lean ====
section
/-! DEFINITION. Issue and completion of matrix operations on a core (R78, R84 to R88, R95 to R98), the
barrier, the ramp and the issue level. -/

namespace Sys2Proof.Machine

/-- Start a ramp of a cluster; one that is already ramping ignores it (R96). -/
def State.startRamp (s : State) (cl : Fin 32) : State :=
  if s.clus[cl].ramping then s
  else s.updClu cl fun u => { u with ramping := true, waves := 0, quiet := false }

/-- MMA's body: the checks of R86 at issue (R84, R86, R96). -/
def mmaBody (i : Issue) (slot : Fin 8) : Body := fun s c =>
  if c.mms.length ≥ 8 then (s, .wait 1)
  else
    let w := c.slots[slot]
    let more := (MmDesc.ofBits w).addressBad
    match (MmDesc.ofBits w).check (s.licence.granted.getLsbD 3) with
    | .operand => (s, .faultWith more 2 0x0111 0)
    | .notLicensed => (s, .faultWith more 2 0x0105 0)
    | .address => (s, .fault 3 0x0207 (BitVec.ofNat 64 (MmDesc.ofBits w).badAddr))
    | .ok =>
      let cl := s.coreCluster i.part i.core
      let s1 := if s.clus[cl].quiet then s.startRamp cl else s
      (s1, .done { c with mms := c.mms ++ [{ desc := w, pc := c.pc, order := c.progress }] })

/-- Issue the matrix operation that a slot describes, or refuse it (R81, R86). -/
def execMma (i : Issue) (slot : Fin 8) (rsvd : BitVec 23) (s : State) : Out :=
  .next (s.issue i (.mma i slot rsvd) (rsvdBody (rsvd == 0) (mmaBody i slot)))

/-- The bytes of one row or column of a region, as a number (R87). -/
def State.rowNat (s : State) (p : PartNo) (k : Fin 1024) (r : Region) (i : Nat) : Nat :=
  match s.localAt p k (r.base + i * r.ld) r.bytes with
  | some key => Mem.readNat s.sram key r.bytes
  | none => 0

/-- Whether a region has a poisoned line among the bytes it reads (R105). -/
def State.regionPoisoned (s : State) (p : PartNo) (k : Fin 1024) (r : Region) : Bool :=
  (List.range r.rows).any fun i => match s.localAt p k (r.base + i * r.ld) r.bytes with
    | some key => s.sramPoisoned key r.bytes
    | none => false

/-- The raw operands of D[i][j]'s products in K order (R44 to R46, R87). -/
def State.prods (s : State) (p : PartNo) (k : Fin 1024) (d : MmDesc) (β i j : Nat) : List ProdIn :=
  let fa := fmtOf d.aFmt
  let fb := fmtOf d.bFmt
  let ra := s.rowNat p k d.regA i
  let rb := s.rowNat p k d.regB j
  let sa := s.rowNat p k (d.regSa β) 0
  let sb := s.rowNat p k (d.regSb β) 0
  (List.range d.k).map fun x =>
    { a := packedElem ra fa.bits x, b := packedElem rb fb.bits x,
      sa := if β = 0 then 0 else packedElem sa 8 (i * (d.k / β) + x / β),
      sb := if β = 0 then 0 else packedElem sb 8 (j * (d.k / β) + x / β) }

/-- One row of D: its bytes as a number, and the flags by engine (R48, R73, R87, R88). -/
def State.mmRow (s : State) (p : PartNo) (k : Fin 1024) (seed : Word) (d : MmDesc) (pr : Pairing)
    (i : Nat) : Nat × List (Nat × ElemFlags) :=
  let fc := fmtOf d.cFmt
  let fd := fmtOf d.dFmt
  let rc := if d.cEn then s.rowNat p k d.regC i else 0
  let es := (List.range d.n).map fun j =>
    let r := mmElem d pr (s.prods p k d pr.block i j) (bitsAt rc (elemBit fc j) fc.bits)
      (srBits seed d.tensorId (d.elemIndex i j))
    (r.1 * 2 ^ elemBit fd j, (d.engine i j, r.2))
  (es.foldl (fun a e => a + e.1) 0, es.map (·.2))

/-- A bit for each engine that raised a flag (R73). -/
def engineBits (fl : List (Nat × ElemFlags)) (f : ElemFlags → Bool) : BitVec 4 :=
  fl.foldl (fun a e => if f e.2 then setBit a e.1 true else a) 0

/-- Add the flags of an operation to CORE_ARITH_STATUS (R73). -/
def CoreArithStatus.raise (r : CoreArithStatus) (fl : List (Nat × ElemFlags)) : CoreArithStatus :=
  { laSat := r.laSat ||| engineBits fl (·.sat), laInexact := r.laInexact ||| engineBits fl (·.inexact),
    invalid := r.invalid ||| engineBits fl (·.invalid), nanOut := r.nanOut ||| engineBits fl (·.nanOut),
    wbOvf := r.wbOvf ||| engineBits fl (·.wbOvf) }

/-- Write row `i` of D, or poison its lines (R87, R88, R105). -/
def State.putRow (s : State) (p : PartNo) (k : Fin 1024) (d : MmDesc) (poison : Bool) (i x : Nat) : State :=
  d.dPieces.foldl (fun s q => match s.localAt p k (d.dAddr + i * d.dLd + q.1) q.2 with
    | some key => s.putSram key (bytesOfNat q.2 (x / 2 ^ (8 * q.1))) poison
    | none => s) s

/-- The write-back of a core's oldest matrix operation: D, flags, poison, the arithmetic trap
(R48, R73, R74, R84, R105, R106). -/
def State.mmComplete (s : State) (p : PartNo) (k : Fin 1024) (op : MmOp) (rest : List MmOp) : State :=
  let c := s.core p k
  let d := MmDesc.ofBits op.desc
  match pairingOf d.aFmt d.bFmt with
  | none => s.setCore p k { c with mms := rest }
  | some pr =>
    let rows := (List.range d.m).map (s.mmRow p k c.seed d pr)
    let poison := s.regionPoisoned p k d.regA || s.regionPoisoned p k d.regB
      || (d.cEn && s.regionPoisoned p k d.regC)
      || (pr.block != 0 && (s.regionPoisoned p k (d.regSa pr.block) || s.regionPoisoned p k (d.regSb pr.block)))
    let s1 := (rows.zipIdx).foldl (fun s r => s.putRow p k d poison r.2 r.1.1) s
    let fl := (rows.map (·.2)).flatten
    let c1 := { c with mms := rest, arith := c.arith.raise fl }
    let c2 := if poison then (c1.consume 0).emit else c1
    let c3 := if poison && c.ctrl.poisonTrap && !c.poison.consumed then c2.raise op.order 5 0x0201 op.pc 0 else c2
    let c4 := if ({ c3 with arith := CoreArithStatus.raise {} fl }).arithTraps then c3.raise op.order 6 0x0112 op.pc 0 else c3
    s1.setCore p k c4

/-! ## Barriers, ramp and issue level -/

/-- A core proceeds past BAR (R95, R97). -/
def Core.passBar (c : Core) : Core :=
  { c with bar := .none, state := if c.ctrl.halt then 4 else 1 }.retire

/-- Let the released cores whose wave is enabled proceed (R97). -/
def State.passReleased (s : State) (p : PartNo) (ks : List (Fin 1024)) : State :=
  ks.foldl (fun s k => if (s.core p k).bar = .released ∧ s.coreEnabled p k then s.updCore p k Core.passBar else s) s

/-- The cores of a partition that run a context of an operation, or on which one is still to be launched: those that
take part in its segment (R95, R217; log 17). -/
def State.takingPart (s : State) (p : PartNo) (op : Nat) : List (Fin 1024) :=
  (s.partCores p).filter fun k =>
    (s.core p k).ctx.any (·.op == op) || (s.part p).stream.any fun y => y.toLaunch.any fun e => e.op == op && e.core == k

/-- Release a barrier among some cores: their earlier writes to scratchpad and cluster memory become visible, they
wait for their waves, and the clusters ramp (R95, R96). -/
def State.releaseAmong (s : State) (p : PartNo) (ks : List (Fin 1024)) (ramp : List (Fin 32)) : State :=
  let s1 := ks.foldl (fun s k => s.updCore p k fun c => { c with bar := .released }) (s.landAll p ks)
  let s2 := ramp.foldl State.startRamp s1
  s2.passReleased p ks

/-- Release the barriers that a core's arrival completes (R95). -/
def State.barrierCheck (s : State) (p : PartNo) (k : Fin 1024) : State :=
  match (s.core p k).ctx with
  | none => s
  | some x =>
    let all := s.takingPart p x.op
    match (s.core p k).bar with
    | .arrived true =>
      if all.all fun j => (s.core p j).bar == .arrived true then
        s.releaseAmong p all (((s.part p).clusters).map (toFin 32))
      else s
    | .arrived false =>
      let mine := all.filter fun j => j.val / 32 == k.val / 32
      if mine.all fun j => (s.core p j).bar == .arrived false then
        s.releaseAmong p mine [s.coreCluster p k]
      else s
    | _ => s

/-- Release the barriers at which the other cores of an operation wait, once a core takes no more part in it: its
context has ended (R95; log 17). -/
def State.barrierLeft (s : State) (p : PartNo) (op : Nat) : State :=
  (s.takingPart p op).foldl (fun s k => s.barrierCheck p k) s

/-- BAR's body: wait for the core's own matrix operations, then arrive (R95). -/
def barBody (imm : BitVec 16) : Body := fun s c =>
  if imm.toNat > 1 then (s, .fault 2 0x0111 0)
  else if !c.mms.isEmpty then (s, .wait 2)
  else (s, .as { c with state := 2, held := none, bar := .arrived (imm == 1) })

/-- Wait at the barrier of scope imm16 (R81, R95). -/
def execBar (i : Issue) (rsvd : BitVec 10) (imm : BitVec 16) (s : State) : Out :=
  let t := s.issue i (.bar i rsvd imm) (rsvdBody (rsvd == 0) (barBody imm))
  let c := t.core i.part i.core
  if (s.core i.part i.core).canIssue && c.state == 2 && c.held.isNone then .next (t.barrierCheck i.part i.core) else .next t

/-- A ramp wave's engines are enabled, in the order of the waves; the last one ends the ramp, and the
cores of the wave that a barrier released proceed (R97). -/
def execRampWaveEnable (cluster : Fin 32) (wave : Fin 8) (s : State) : Out :=
  let u := s.clus[cluster]
  if !u.ramping || u.waves != BitVec.ofNat 8 (2 ^ wave.val - 1) then .next s
  else
    let s1 := s.updClu cluster fun u =>
      { u with waves := setBit u.waves wave.val true, ramping := wave.val != 7 }
    match s.clusterPart cluster with
    | none => .next s1
    | some (p, l) =>
      .next (s1.passReleased p ((List.range 4).map fun j => toFin 1024 (32 * l + 4 * wave.val + j)))

/-- After 256 cycles in which no matrix operation was executing, a cluster is quiet; a cluster that
ramps, or whose cores hold operations, is not (R96). -/
def execClusterQuiet (cluster : Fin 32) (s : State) : Out :=
  let busy := match s.clusterPart cluster with
    | none => false
    | some (p, l) => (List.range 32).any fun j => !(s.core p (toFin 1024 (32 * l + j))).mms.isEmpty
  if busy || s.clus[cluster].ramping then .next s
  else .next (s.updClu cluster fun u => { u with quiet := true })

end Sys2Proof.Machine
end

