-- ==== Sys2Proof/Machine/QueueOps.lean ====
section
/-! DEFINITION. The operations of stream queues: words, credits, grants, flush and break (R144 to
R162). -/

namespace Sys2Proof.Machine

/-- PARITY of a word's DATA: bit i is the XOR of bytes 8i to 8i + 7 (R147). -/
def parityOf (x : Line) : BitVec 8 :=
  BitVec.ofNat 8 ((List.range 8).foldl (fun a i => a + (popCount (x.extractLsb' (64 * i) 64) % 2) * 2 ^ i) 0)

/-- Words present and contiguous from a slot, at most `n` (R151). -/
def presentFrom (words : Table (Option QWord)) (w slot : Nat) : Nat → List QWord
  | 0 => []
  | n + 1 => match Table.get none words slot with
    | none => []
    | some x => x :: presentFrom words w ((slot + 1) % w) n

/-- The words that are present (R151). -/
def QIn.present (q : QIn) : Table (Option QWord) := q.words.filter fun e => !q.storing.contains e.1

/-- The words waiting in an inbound side, contiguous from the head (R151). -/
def QIn.waiting (q : QIn) : List QWord :=
  presentFrom q.present q.st.capacity.toNat q.st.head.toNat q.words.length

/-- The packet counter; a disabled side gives zero (R155). -/
def QIn.counter (q : QIn) : Word :=
  if !q.cfg.enable then 0
  else if q.st.flushed then packFields [(63, 1, 1)]
  else
    let ws := q.waiting
    packFields [(0, 24, (ws.filter (·.fin)).length), (24, 21, ws.length)]

/-- A notice of R157 to another unit: ACTION 0 breaks an outbound binding, 1 flushes an inbound side
(R277). -/
def noticePkt (s : State) (p : PartNo) (goal : QPeer) (reason : Code) (flush : Bool) : Pkt :=
  { dest := goal.device, dpart := goal.part, cls := 3, type := 3, src := s.self, spart := BitVec.ofNat 2 p.val,
    endpoint := queueEndpoint goal.core.toNat goal.queue.toNat,
    desc := mkDesc [(0, 0, 16, reason.toNat), (2, 0, 1, if flush then 1 else 0)] }

/-- A grant: W and the head slot (R150, R277). -/
def grantPkt (s : State) (p : PartNo) (q : QIn) : Pkt :=
  { dest := q.src.device, dpart := q.src.part, cls := 1, type := 3, src := s.self,
    spart := BitVec.ofNat 2 p.val, endpoint := queueEndpoint q.src.core.toNat q.src.queue.toNat,
    desc := mkDesc [(0, 0, 20, q.st.capacity.toNat), (4, 0, 20, q.st.head.toNat)] }

/-- A return of credits (R150, R277, R301). -/
def creditPkt (s : State) (p : PartNo) (q : QIn) (n : Nat) : Pkt :=
  { dest := q.src.device, dpart := q.src.part, cls := 1, type := 4, src := s.self,
    spart := BitVec.ofNat 2 p.val, endpoint := queueEndpoint q.src.core.toNat q.src.queue.toNat,
    desc := mkDesc [(0, 0, 20, n), (4, 0, 1, if q.echo then 1 else 0)] }

/-- Return the unreturned credits when there are at least 16 or the queue has become empty (R150). -/
def State.returnCredits (s : State) (p : PartNo) (k : Fin 1024) (q : Fin 8) : State :=
  let x := s.qin p k q
  if x.unreturned = 0 then s
  else if x.unreturned ≥ 16 ∨ x.words.isEmpty then
    (s.setQin p k q { x with unreturned := 0, echo := false }).send (creditPkt s p x x.unreturned)
  else s

/-- The slots of a packet of queue words, with wrap (R150). -/
def wordSlot (w first i : Nat) : Nat := if w = 0 then first else (first + i) % w

/-- How many slots from slot `a` forward slot `b` lies, modulo W (R150, R161). -/
def wordDistance (w a b : Nat) : Nat := if w = 0 then 0 else (b + w - a % w) % w

/-! ## The scree -/

/-- The tag of a word (R149). -/
def QWord.tag (w : QWord) : Nat := w.parity.toNat + (if w.fin then 256 else 0) + (if w.poison then 512 else 0)

/-- Where DATA and tag of scree slot `n` lie (R149). -/
def screeData (base n : Nat) : Nat := base + n / 60 * 4096 + 64 * (n % 60)
/-- The tag of scree slot `n` (R149). -/
def screeTag (base n : Nat) : Nat := base + n / 60 * 4096 + 3840 + 2 * (n % 60)
/-- Bytes 3,960 to 4,095 of the page of scree slot `n`, which are zero (R149). -/
def screePad (base n : Nat) : Nat := base + n / 60 * 4096 + 3960

/-- The device-local address of a side's scree (R163). -/
def QIn.screeAt (q : QIn) : Nat := q.cfg.screeBase.toNat * 4096

/-- Whether a core-mode side holds the word of a slot in its windows: any of up to 32 words, the 16 nearest the head, the
16 latest to arrive, and slots 0 to 31, which have no place in the scree (R146, R149; DEDUCED, log 87). -/
def QIn.inWindow (q : QIn) (slot : Nat) : Bool :=
  decide (q.words.length ≤ 32) || decide (slot < 32)
    || decide (wordDistance q.st.capacity.toNat q.st.head.toNat slot < 16)
    || (q.arrivals.drop (q.arrivals.length - 16)).contains slot

/-- Spill the word of a slot to the scree (R146, R148, R149). -/
def State.spillWord (s : State) (p : PartNo) (k : Fin 1024) (q : Fin 8) (slot : Nat) : State :=
  let x := s.qin p k q
  match Table.get none x.words slot with
  | none => s
  | some w =>
    let n := slot - 32
    (((s.setQin p k q { x with inScree := insertNat slot x.inScree }).stackWrite p (screeData x.screeAt n)
      (bytesOfNat 64 w.data.toNat) false).stackWrite p (screeTag x.screeAt n) (bytesOfNat 2 w.tag) false).stackWrite p
      (screePad x.screeAt n) (zeros 136) false

/-- Refill the word of a slot from the scree: poison of its granule or of its tag's, and a failed parity, poison it
(R126, R148). -/
def State.refillWord (s : State) (p : PartNo) (k : Fin 1024) (q : Fin 8) (slot : Nat) : State :=
  let x := s.qin p k q
  match Table.get none x.words slot with
  | none => s
  | some w =>
    let n := slot - 32
    let d := s.stackRead p (screeData x.screeAt n) 64
    let t := s.stackRead p (screeTag x.screeAt n) 2
    let tag := natOfBytes t.1
    let line : Line := BitVec.ofNat 512 (natOfBytes d.1)
    let parity := BitVec.ofNat 8 (tag % 256)
    let w1 : QWord := { data := line, parity := parity, fin := if t.2 then w.fin else tag.testBit 8,
                        poison := tag.testBit 9 || d.2 || t.2 || parityOf line != parity }
    ((s.meetOwners p (screeData x.screeAt n) 64).meetOwners p (screeTag x.screeAt n) 2).setQin p k q
      { x with words := Table.set none x.words slot (some w1), inScree := x.inScree.erase slot }

/-- Move words between the windows of a core-mode side and its scree: those outside the windows are spilled, those
within refilled (R146). -/
def State.settleScree (s : State) (p : PartNo) (k : Fin 1024) (q : Fin 8) : State :=
  let x := s.qin p k q
  let s1 := (x.inScree.filter x.inWindow).foldl (fun s n => s.refillWord p k q n) s
  let s2 := ((x.words.map (·.1)).filter fun n => !x.inWindow n && !x.inScree.contains n).foldl
    (fun s n => s.spillWord p k q n) s1
  let y := s2.qin p k q
  s2.setQin p k q { y with st := { y.st with spilled := !y.inScree.isEmpty } }

/-- Replace a host-queue slot's registers. -/
def State.setHostQ (s : State) (p : PartNo) (n : Fin 16) (h : HostQ) : State :=
  s.updPart p fun y => { y with hostQs := y.hostQs.set n h }

/-- Flush an inbound side with a reason: it empties, sets its marker and sends a break notice; a side
that is flushed already, or disabled, keeps its state (R156, R157, R161, R328). -/
def State.flush (s : State) (p : PartNo) (k : Fin 1024) (q : Fin 8) (reason : Code) : State :=
  let x := s.qin p k q
  if !x.cfg.enable || x.st.flushed then s
  else
    let y := { x with words := [], arrivals := [], inScree := [], storing := [], unreturned := 0, toAck := [],
                      st := { x.st with flushed := true, reason := reason, spilled := false } }
    let s1 := (s.setQin p k q y).send (noticePkt s p x.src reason false)
    if x.cfg.host then
      let n : Fin 16 := toFin 16 x.cfg.hostSlot.toNat
      let h := (s.part p).hostQs[n]
      let h1 := { h with cfg := { h.cfg with flushed := true, reason := reason },
                         tail := { h.tail with tail := h.head, full := false } }
      (s1.setHostQ p n h1).raiseVector (s.owner p) h.base.vector
    else s1

/-- Whether a held instruction waits for a binding's acknowledgements: FENCE 1, FENCE 2 or END (R157). -/
def waitsForAcks : Instr → Bool
  | .fence _ _ imm => imm == 1 || imm == 2
  | .endContext _ _ => true
  | _ => false

/-- Whether a held instruction is a QPUSH on a queue (R153). -/
def waitsForCredits (q : Fin 8) : Instr → Bool
  | .qpush _ _ j _ _ _ => j == q
  | _ => false

/-- Break an outbound binding: its unacknowledged words count as acknowledged, and what waited on it
raises the queue fault (R157). -/
def State.breakBinding (s : State) (p : PartNo) (k : Fin 1024) (q : Fin 8) (reason : Code) : State :=
  let b := s.qout p k q
  if !b.valid || b.st.broken then s
  else
    let s1 := s.setQout p k q { b with unacked := 0, breakReason := reason, st := { b.st with broken := true } }
    let c := s.core p k
    match c.held with
    | none => s1
    | some h =>
      if waitsForCredits q h || (waitsForAcks h && b.unacked != 0) then
        s1.setCore p k ((CRes.fault 8 reason 0).apply c h)
      else s1

/-- The capacity W of an inbound side (R146). -/
def screeWords (host : Bool) (pages : Nat) : Nat := (if host then 0 else 32) + 60 * pages

/-- A partition's capacity C_p in bytes (R108). -/
def State.capacity (s : State) (p : PartNo) : Nat := (s.part p).capacity.capacityGib.toNat * 2 ^ 30

/-- Whether a range of device-local addresses lies below C_p and outside the dump area (R108, R109). -/
def State.rangeOk (s : State) (p : PartNo) (a n : Nat) : Bool :=
  decide (0x10000000 ≤ a) && decide (a + n ≤ s.capacity p)

/-- The fields of QIN_SRC or QOUT_DST (R163). -/
def QPeer.ofWord (w : Word) : QPeer :=
  { device := w.extractLsb' 0 14, part := w.extractLsb' 14 2, core := w.extractLsb' 16 10,
    queue := w.extractLsb' 26 3, bindGen := w.extractLsb' 32 8 }

/-- QIN_SRC or QOUT_DST as a reader sees it (R163). -/
def QPeer.word (x : QPeer) (valid : Bool) (reason : Code) : Word :=
  packFields [(0, 14, x.device.toNat), (14, 2, x.part.toNat), (16, 10, x.core.toNat), (26, 3, x.queue.toNat),
    (29, 1, if valid then 1 else 0), (32, 8, x.bindGen.toNat), (48, 16, reason.toNat)]

/-- Free the host-queue slot that an inbound side used: HQ_CFG and HQ_BASE mirror a bound QIN_CFG only (R164). -/
def State.releaseSlot (s : State) (p : PartNo) (x : QIn) : State :=
  if x.cfg.enable && x.cfg.host then
    let n : Fin 16 := toFin 16 x.cfg.hostSlot.toNat
    s.setHostQ p n { (s.part p).hostQs[n] with cfg := {}, base := {} }
  else s

/-- Write QIN_CFG and QIN_SRC: enabling checks the scree, sets W and sends a grant; a bad scree leaves
the side disabled with CFG_ERROR (R146, R150, R160, R163). The words that the side holds, its head and its flush marker
stay as they are (the spec does not say; DESIGN CHOICE, log 87). -/
def State.enableSide (s : State) (p : PartNo) (k : Fin 1024) (q : Fin 8) (cfg : QinCfg) (src : QPeer)
    (vector : BitVec 8) : State :=
  let x := s.qin p k q
  let pages := cfg.screePages.toNat
  let bad := decide (pages > 16384) || (cfg.host && pages == 0)
    || (pages != 0 && !s.rangeOk p (cfg.screeBase.toNat * 4096) (pages * 4096))
  if !cfg.enable || bad then
    (s.releaseSlot p x).setQin p k q
      { x with cfg := { cfg with enable := false, cfgError := cfg.enable && bad }, src := src, heldGen := some src.bindGen }
  else
    let y := { x with cfg := { cfg with cfgError := false }, src := src, heldGen := some src.bindGen,
                      st := { x.st with capacity := BitVec.ofNat 20 (screeWords cfg.host pages) } }
    let s1 := ((s.releaseSlot p x).setQin p k q y).send (grantPkt s p y)
    if !cfg.host then s1
    else
      let h : HostQ :=
        { cfg := { active := true, queue := BitVec.ofNat 3 q.val, core := BitVec.ofNat 10 k.val },
          base := { screeBase := cfg.screeBase, screePages := cfg.screePages, vector := vector },
          head := y.st.head, tail := { tail := y.st.head, armed := true } }
      s1.setHostQ p (toFin 16 cfg.hostSlot.toNat) h

/-- Reset an inbound side: contents discarded without a marker, head 0, a new grant when enabled
(R158). -/
def State.resetSide (s : State) (p : PartNo) (k : Fin 1024) (q : Fin 8) : State :=
  let x := s.qin p k q
  let y := { x with words := [], arrivals := [], inScree := [], storing := [], unreturned := 0, echo := false, toAck := [],
                    st := { x.st with head := 0, flushed := false, reason := 0, spilled := false } }
  let s1 := s.setQin p k q y
  let s2 := if x.cfg.enable then s1.send (grantPkt s p y) else s1
  if !(x.cfg.enable && x.cfg.host) then s2
  else
    let n : Fin 16 := toFin 16 x.cfg.hostSlot.toNat
    let h := (s2.part p).hostQs[n]
    s2.setHostQ p n { h with head := 0, cfg := { h.cfg with flushed := false, reason := 0 },
                             tail := { h.tail with tail := 0, full := false } }

/-- Write QOUT_DST: with VALID 1 the binding's state is cleared and a grant request sent (R150, R163). -/
def State.bindOut (s : State) (p : PartNo) (k : Fin 1024) (q : Fin 8) (dst : QPeer) (valid : Bool) : State :=
  let b := s.qout p k q
  if !valid then s.setQout p k q { b with dst := dst, valid := false, heldGen := some dst.bindGen }
  else
    let y : QOut := { dst := dst, valid := true, heldGen := some dst.bindGen }
    (s.setQout p k q y).send
      { dest := dst.device, dpart := dst.part, cls := 3, type := 2, src := s.self,
        spart := BitVec.ofNat 2 p.val, endpoint := queueEndpoint dst.core.toNat dst.queue.toNat,
        desc := mkDesc [(0, 0, 10, k.val), (0, 10, 3, q.val), (2, 0, 8, dst.bindGen.toNat)] }

/-- Hand a packet of queue words on: to its inbound side within the partition, else to a local interface; the writes
that its sender made before to the same core's scratchpad go first (R94, R111). -/
def State.sendWords (s : State) (p : Pkt) (after : List WriteRef) : State :=
  let s1 := if after.isEmpty then s else { s with wordAfter := s.wordAfter ++ [(p, after)] }
  if s.device = some p.dest ∧ p.spart = p.dpart then { s1 with words := s1.words ++ [(p, List.range p.data.length)] }
  else s1.send p

/-- The packet in which a QPUSH sends its words (R150, R277). -/
def wordsPkt (s : State) (p : PartNo) (k : Fin 1024) (q : Fin 8) (b : QOut) (ws : List QWord) : Pkt :=
  { dest := b.dst.device, dpart := b.dst.part, cls := 2, type := 0, src := s.self,
    spart := BitVec.ofNat 2 p.val, endpoint := queueEndpoint b.dst.core.toNat b.dst.queue.toNat,
    desc := mkDesc ([(0, 0, 20, b.st.nextSlot.toNat), (4, 0, 8, b.dst.bindGen.toNat), (6, 0, 10, k.val),
        (6, 10, 3, q.val), (16, 0, 64, if b.midPacket then 0 else (match ws with | [] => 0 | w :: _ => w.data.toNat))]
      ++ (ws.zipIdx).map fun w => (8 + 2 * w.2, 0, 16, w.1.tag)),
    data := ws.map fun w => (w.data, w.poison) }

/-- QPUSH's body (R153). -/
def qpushBody (i : Issue) (va : Reg) (q : Fin 8) (n : Fin 4) (fin : Bool) : Body := fun s c =>
  let b := s.qout i.part i.core q
  let m := n.val + 1
  if !b.valid then (s, .fault 8 0x0121 0)
  else if b.st.broken then (s, .fault 8 b.breakReason 0)
  else if b.st.credits.toNat < m then (s, .wait 3)
  else
    let ws := (List.range m).map fun j =>
      let d : Line := (c.vr va).extractLsb' (512 * j) 512
      ({ data := d, parity := parityOf d, fin := fin && j + 1 == m, poison := c.vpoison va } : QWord)
    let b1 := { b with unacked := b.unacked + m, midPacket := !fin,
                       st := { b.st with credits := b.st.credits - BitVec.ofNat 20 m,
                                         nextSlot := BitVec.ofNat 20 (wordSlot b.st.capacity.toNat b.st.nextSlot.toNat m) } }
    ((s.setQout i.part i.core q b1).sendWords (wordsPkt s i.part i.core q b ws)
        (s.writesTo i.part i.core b.dst),
     .done (if c.vpoison va then c.emit else c))

/-- Push the first n words of v[va] to the target bound to queue q (R81, R153). -/
def execQpush (i : Issue) (va : Reg) (q : Fin 8) (n : Fin 4) (fin : Bool) (rsvd : BitVec 15) (s : State) : Out :=
  .next (s.issue i (.qpush i va q n fin rsvd) (rsvdBody (rsvd == 0) (qpushBody i va q n fin)))

/-- The word is the valid OPEN that ends the opening sweep of a collective's lane (R318, R320, R321). -/
def Coll.opens (c : Coll) (lane : Nat) (z : QWord) : Bool :=
  let d := z.data.toNat
  !z.poison && parityOf z.data == z.parity && bitsAt d 0 64 == c.hash.toNat && bitsAt d 64 32 == c.seq.toNat
    && bitsAt d 96 16 == c.group.toNat && bitsAt d 112 8 == 1 && bitsAt d 120 8 == (c.size - 2) % 256
    && bitsAt d 128 10 == (c.pos + c.size - 1) % c.size && bitsAt d 138 6 == lane

/-- A lane at the root of a broadcast pops words: once its opening sweep has ended, a multicast slot of its core is armed
(R321, R326; log 37). -/
def State.noteSweep (s : State) (p : PartNo) (k : Fin 1024) (x : Option Ctx) (ws : List QWord) : State :=
  match x, (s.part p).stream with
  | some x, some y => match y.colls.find? (fun c => c.op == x.op && x.lane) with
    | none => s
    | some c => match c.mcast, (List.finRange 16).find? fun i => !(s.part p).colMcast[i].armed with
      | some m, some i =>
        let has := (s.part p).colMcast.toList.any fun o => o.armed && o.core == BitVec.ofNat 10 k.val
        if has || !ws.any (c.opens x.laneNo) then s
        else s.updPart p fun q => { q with colMcast := q.colMcast.set i { m with core := BitVec.ofNat 10 k.val, armed := true } }
      | _, _ => s
  | _, _ => s

/-- QPOP's body (R148, R150, R154). -/
def qpopBody (i : Issue) (d : Reg) (q : Fin 8) (n : Fin 4) : Body := fun s c =>
  let x := s.qin i.part i.core q
  let m := n.val + 1
  if !x.cfg.enable || x.cfg.host then (s, .fault 8 0x0121 0)
  else if x.st.flushed then (s, .fault 8 x.st.reason 0)
  else if x.waiting.length < m then (s, .wait 3)
  else
    let ws := x.waiting.take m
    let w := x.st.capacity.toNat
    let y := { x with words := (List.range m).foldl (fun t j => Table.erase t (wordSlot w x.st.head.toNat j)) x.words,
                      arrivals := x.arrivals.filter fun a => !((List.range m).map (wordSlot w x.st.head.toNat)).contains a,
                      unreturned := x.unreturned + m,
                      st := { x.st with head := BitVec.ofNat 20 (wordSlot w x.st.head.toNat m) } }
    let poison := ws.any fun z => z.poison || parityOf z.data != z.parity
    let v : Block := BitVec.ofNat 2048 (packElems 512 (ws.map (·.data.toNat)))
    let s1 := ((s.setQin i.part i.core q y).settleScree i.part i.core q).returnCredits i.part i.core q
    if poison then (s1.bump, consumeDone c (c.setVr d (Config.freeBlock s.freeCtr) true) 2)
    else (s1.noteSweep i.part i.core c.ctx ws, .done (c.setVr d v false))

/-- Pop n words of queue q into v[d], zeroing the rest (R81, R154). -/
def execQpop (i : Issue) (d : Reg) (q : Fin 8) (n : Fin 4) (rsvd : BitVec 16) (s : State) : Out :=
  .next (s.issue i (.qpop i d q n rsvd) (rsvdBody (rsvd == 0) (qpopBody i d q n)))

/-- g[d] = the packet counter of queue q (R81, R155). -/
def execQcount (i : Issue) (d : Reg) (q : Fin 8) (rsvd : BitVec 18) (s : State) : Out :=
  .next (s.issue i (.qcount i d q rsvd) (rsvdBody (rsvd == 0) fun s c =>
    (s, .done (c.setGr d (s.qin i.part i.core q).counter))))

/-- The fields of QIN_CFG written by firmware; CFG_ERROR is not written (R163). -/
def QinCfg.written (w : Word) : QinCfg := { QinCfg.ofWord w with cfgError := false }

/-- Firmware writes QIN_CFG and QIN_SRC of an inbound side (R145, R150). -/
def execQinEnable (part : PartNo) (core : Fin 1024) (q : Fin 8) (cfg src : Word) (vector : BitVec 8)
    (s : State) : Out :=
  .next (s.enableSide part core q (QinCfg.written cfg) (QPeer.ofWord src) vector)

/-- Firmware writes QOUT_DST of an outbound binding (R150). -/
def execQoutBind (part : PartNo) (core : Fin 1024) (q : Fin 8) (dst : Word) (s : State) : Out :=
  .next (s.bindOut part core q (QPeer.ofWord dst) (dst.getLsbD 29))

/-- Firmware writes QIN_CTRL.RESET (R158). -/
def execQinReset (part : PartNo) (core : Fin 1024) (q : Fin 8) (s : State) : Out :=
  .next (s.resetSide part core q)

end Sys2Proof.Machine
end

