-- ==== Sys2Proof/Machine/MeshOps.lean ====
section
/-! DEFINITION. Address operands (R110), requests on the mesh and to other packages (R118, R277, R294),
PUT, RADD and FENCE. -/

namespace Sys2Proof.Machine

/-- Whether an operand names the issuing partition: LOCAL 1, or its own device and partition (R111). -/
def State.isLocal (s : State) (p : PartNo) (a : AddrOp) : Bool :=
  a.loc || (s.device == some a.device && a.part == BitVec.ofNat 2 p.val)

/-- Whether bytes lie in a space of a partition that its own requests may reach (R79, R108, R109). -/
def State.extentOk (s : State) (p : PartNo) (space : BitVec 2) (unit off len : Nat) : Bool :=
  match space.toNat with
  | 0 => s.rangeOk p off len
  | 1 => decide (unit < (s.part p).clusters.length * 32) && decide (off + len ≤ 2 ^ 21)
  | 2 => decide (unit < (s.part p).clusters.length) && decide (off + len ≤ 2 ^ 24)
  | _ => false

/-- Cut a range into packets: OFFSET mod 64 + LENGTH at most 512 (R277). -/
def packetCuts : Nat → Nat → Nat → List (Nat × Nat)
  | 0, _, _ => []
  | n + 1, off, len =>
    if len = 0 then []
    else
      let l := min len (512 - off % 64)
      (off, l) :: packetCuts n (off + l) (len - l)

/-- The key of a reply slot. -/
def replyKey (p : PartNo) (unit : BitVec 16) (slot : Nat) : Nat := (p.val * 4096 + unit.toNat) * 4096 + slot

/-- A reply slot. -/
def State.replySlot (s : State) (p : PartNo) (unit : BitVec 16) (slot : Nat) : ReplySlot :=
  Table.get {} s.reply (replyKey p unit slot)

/-- Replace a reply slot. -/
def State.setReply (s : State) (p : PartNo) (unit : BitVec 16) (slot : Nat) (x : ReplySlot) : State :=
  { s with reply := Table.set {} s.reply (replyKey p unit slot) x }

/-- The lowest free reply slot of a unit whose `n` slots are free (R294). -/
def State.freeReply (s : State) (p : PartNo) (unit : BitVec 16) (n : Nat) : Option Nat :=
  firstBelow (4097 - n) fun i => (List.range n).all fun j => (s.replySlot p unit (i + j)).use.isNone

/-- The REPLY field (R277). -/
def replyField (unit : BitVec 16) (slot : Nat) (gen : BitVec 4) : Nat :=
  unit.toNat + (slot % 4096) * 2 ^ 16 + gen.toNat * 2 ^ 28

/-- Take reply slots: all carry the first one's generation (R294). -/
def State.takeReply (s : State) (p : PartNo) (unit : BitVec 16) (slot n : Nat) (use : ReplyUse) : State :=
  let gen := (s.replySlot p unit slot).gen
  (List.range n).foldl (fun s j => s.setReply p unit (slot + j) { gen := gen, use := some use }) s

/-- Free a reply slot: its generation advances (R294). -/
def State.releaseReply (s : State) (p : PartNo) (unit : BitVec 16) (slot : Nat) : State :=
  s.setReply p unit slot { gen := (s.replySlot p unit slot).gen + 1, use := none }

/-- Whether no slot of the 8 from `base` on awaits an answer any more. -/
def State.groupOver (s : State) (p : PartNo) (unit : BitVec 16) (base : Nat) : Bool :=
  (List.range 8).all fun j => !(s.replySlot p unit (base + j)).awaits

/-- Free the slots that an MWRITE reserved from `base` on and nothing answers, once its targets' slots are free (R294;
DESIGN CHOICE, log 92). -/
def State.releaseGroup (s : State) (p : PartNo) (unit : BitVec 16) (base : Nat) : State :=
  if s.groupOver p unit base then
    (List.range 8).foldl (fun s j =>
      if (s.replySlot p unit (base + j)).use == some (.reserved base) then s.releaseReply p unit (base + j) else s) s
  else s

/-- A slot is freed, and with the last of its MWRITE's targets the slots reserved beside them (R294). -/
def State.freeSlot (s : State) (p : PartNo) (unit : BitVec 16) (slot : Nat) : State :=
  (List.range 8).foldl (fun s d => if d ≤ slot then s.releaseGroup p unit (slot - d) else s) (s.releaseReply p unit slot)

/-- Take the 8 slots of an MWRITE: those of its targets await a WACK, the others are only reserved (R294, R326). -/
def State.takeGroup (s : State) (p : PartNo) (unit : BitVec 16) (slot : Nat) (mask : BitVec 8) (use : ReplyUse) : State :=
  let gen := (s.replySlot p unit slot).gen
  (List.range 8).foldl (fun s j =>
    s.setReply p unit (slot + j) { gen := gen, use := some (if mask.getLsbD j then use else .reserved slot) }) s

/-- Whether `m` requests of `n` slots each find their slots free (R294). -/
def State.replyFits (s : State) (p : PartNo) (unit : BitVec 16) (n : Nat) : Nat → Bool
  | 0 => true
  | m + 1 => match s.freeReply p unit n with
    | none => false
    | some i => (s.takeReply p unit i n (.reserved i)).replyFits p unit n m

/-- The data cells of a request: one for each line that the range touches; `src` gives the bytes and
the poison of a part of the range (R277). -/
def dataCells (off len : Nat) (src : Nat → Nat → List Byte × Bool) : List (Line × Bool) :=
  (linesOf off len).map fun l =>
    let lo := max off (64 * l)
    let hi := min (off + len) (64 * l + 64)
    let r := src lo (hi - lo)
    (BitVec.ofNat 512 (natOfBytes (zeros (lo - 64 * l) ++ r.1)), r.2)

/-- A REQ packet (R277). -/
def reqPkt (s : State) (p : PartNo) (dest : DeviceNo) (dpart : BitVec 2) (type : BitVec 3) (space : BitVec 2)
    (offset len reply : Nat) (extra : List (Nat × Nat × Nat × Nat)) (data : List (Line × Bool)) : Pkt :=
  { dest := dest, dpart := dpart, cls := 0, type := type, src := s.self, spart := BitVec.ofNat 2 p.val,
    desc := mkDesc ([(0, 0, 40, offset), (0, 40, 2, space.toNat), (8, 0, 10, len), (12, 0, 32, reply)] ++ extra),
    data := data }

/-- The bytes and the poison of a part of a PUT's source; `base` is the place of the operand's first
byte, `first` the destination offset of that byte. -/
def State.putSource (s : State) (key first : Nat) (lo n : Nat) : List Byte × Bool :=
  (Mem.read s.sram (key + (lo - first)) n, s.sramPoisoned (key + (lo - first)) n)

/-- Send a PUT or RADD within the partition, as mesh requests (R118, R119). -/
def State.putLocal (s : State) (src : MeshSrc) (p : PartNo) (a : AddrOp) (key len : Nat) (radd : Bool)
    (ack : MeshAck) : State :=
  { s with mesh := s.mesh ++ (pieces a.space a.byte len).map fun x =>
      let r := s.putSource key a.byte x.1 x.2
      { src := src, part := p, space := a.space, unit := a.unit, addr := x.1, radd := radd,
        bytes := r.1, poison := r.2, ack := ack } }

/-- The slots that each packet of a PUT or RADD takes: 8 consecutive ones for an MWRITE (R294, R326). -/
def State.putSlots (s : State) (p : PartNo) (k : Fin 1024) (a : AddrOp) (radd : Bool) : Nat :=
  if (if radd then none else s.mcastSlot p k a).isSome then 8 else 1

/-- Send one packet of a PUT or RADD to another partition or package, with its reply slot; an MWRITE takes
8 consecutive free slots, of which those of its targets await a WACK (R294, R303, R326). -/
def State.putPacket (s : State) (p : PartNo) (k : Fin 1024) (a : AddrOp) (key : Nat) (radd : Bool)
    (use : ReplyUse) (x : Nat × Nat) : State :=
  let unit := BitVec.ofNat 16 k.val
  let base := a.offset - a.byte
  let cells := dataCells x.1 x.2 (s.putSource key a.byte)
  match if radd then none else s.mcastSlot p k a with
  | some m =>
    let slot := (s.freeReply p unit 8).getD 0
    let gen := (s.replySlot p unit slot).gen
    (s.takeGroup p unit slot m.mask use).send (reqPkt s p m.device m.part 3 a.space (base + x.1) x.2
      (replyField unit slot gen) [(16, 0, 8, m.mask.toNat), (16, 8, 1, m.axis.toNat)] cells)
  | none =>
    let slot := (s.freeReply p unit 1).getD 0
    let gen := (s.replySlot p unit slot).gen
    (s.takeReply p unit slot 1 use).send (reqPkt s p a.device a.part (if radd then 1 else 0) a.space
      (base + x.1) x.2 (replyField unit slot gen) [] cells)

/-- Whether an operand of PUT or RADD breaks R79, R108 or R110 (R81). -/
def State.putAddrBad (s : State) (i : Issue) (c : Core) (a b : Reg) (len : Nat) (radd : Bool) : Bool :=
  let op := AddrOp.ofWord (c.gr b)
  (s.localAt i.part i.core (c.gr a).toNat len).isNone || !op.formOk || (radd && op.offset % 4 != 0)
    || (if s.isLocal i.part op then !s.extentOk i.part op.space op.unit op.byte len else decide (op.offset + len > 2 ^ 40))

/-- PUT's and RADD's body (R81, R108 to R111, R118, R294, R326). A RADD whose destination is not a
multiple of 4 takes the address fault (R277; DEDUCED, log 18). -/
def putBody (i : Issue) (a b : Reg) (count : BitVec 11) (radd : Bool) : Body := fun s c =>
  let len := count.toNat * 64
  let op := AddrOp.ofWord (c.gr b)
  if count = 0 then (s, .faultWith (s.putAddrBad i c a b len radd) 2 0x0111 0)
  else match s.localAt i.part i.core (c.gr a).toNat len with
    | none => (s, .fault 3 0x0207 (c.gr a))
    | some key =>
      if !op.formOk || (radd && op.offset % 4 != 0) then (s, .fault 3 0x0207 (c.gr b))
      else if c.mmHolds (c.gr a).toNat len false then (s, .wait 1)
      else
        let c1 := if s.sramPoisoned key len then c.emit else c
        if s.isLocal i.part op then
          if !s.extentOk i.part op.space op.unit op.byte len then (s, .fault 3 0x0207 (c.gr b))
          else (s.putLocal (.core i.part i.core) i.part op key len radd (.put c.pc (c.gr b) c.progress), .done c1)
        else if op.offset + len > 2 ^ 40 then (s, .fault 3 0x0207 (c.gr b))
        else
          let cuts := packetCuts (len / 448 + 2) op.byte len
          if !s.replyFits i.part (BitVec.ofNat 16 i.core.val) (s.putSlots i.part i.core op radd) cuts.length then (s, .wait 1)
          else
            let use := ReplyUse.put i.core c.pc (c.gr b) c.progress
            (cuts.foldl (fun s x => s.putPacket i.part i.core op key radd use x) s, .done c1)

/-- Write function × 64 bytes from core-local memory to an address operand (R81). -/
def execPut (i : Issue) (a b : Reg) (count : BitVec 11) (s : State) : Out :=
  .next (s.issue i (.put i a b count) (putBody i a b count false))

/-- As PUT, but add the FP32 elements into the destination (R81, R120). -/
def execRadd (i : Issue) (a b : Reg) (count : BitVec 11) (s : State) : Out :=
  .next (s.issue i (.radd i a b count) (putBody i a b count true))

/-- Whether every earlier PUT, RADD and QPUSH of a core has been acknowledged (R81, R151). -/
def State.acksDone (s : State) (p : PartNo) (k : Fin 1024) : Bool :=
  s.mesh.all (fun r => r.src != .core p k)
    && s.reply.all (fun e => decide (e.1 / 4096 ≠ p.val * 4096 + k.val) || !e.2.awaits)
    && (List.finRange 8).all fun q => (s.qout p k q).unacked == 0

/-- FENCE's body (R81). -/
def fenceBody (i : Issue) (imm : BitVec 16) : Body := fun s c =>
  if imm.toNat > 2 then (s, .fault 2 0x0111 0)
  else if (imm != 1 && !c.mms.isEmpty) || (imm != 0 && !s.acksDone i.part i.core) then (s, .wait 1)
  else (s, .done c)

/-- Wait for local operations (0), acknowledgements (1) or both (2) (R81). -/
def execFence (i : Issue) (rsvd : BitVec 10) (imm : BitVec 16) (s : State) : Out :=
  .next (s.issue i (.fence i rsvd imm) (rsvdBody (rsvd == 0) (fenceBody i imm)))

end Sys2Proof.Machine
end

