-- ==== Sys2Proof/Machine/DmaOps.lean ====
section
/-! DEFINITION. DMA descriptors (R166 to R169), posting and cancelling them (R165, R175, R176), and
DMAQ. -/

namespace Sys2Proof.Machine

/-- A DMA descriptor's fields (R166). -/
structure DmaDesc where
  kind : Nat
  indexSide : Bool
  notify : Bool
  token : Nat
  userTag : BitVec 32
  src : AddrOp
  dst : AddrOp
  index : AddrOp
  size : Nat
  count : Nat
  srcStride : Int
  dstStride : Int
  srcW : Word
  dstW : Word
  indexW : Word
  /-- Every RSVD bit is zero: offset 0x00 [15:4], TOKEN [15:10], offset 0x38 (R166, R223). -/
  rsvdZero : Bool
  deriving DecidableEq, Repr

/-- The fields of 64 bytes (R166). -/
def DmaDesc.ofBits (w : BitVec 512) : DmaDesc :=
  let x := w.toNat
  { kind := bitsAt x 0 2, indexSide := x.testBit 2, notify := x.testBit 3, token := bitsAt x 16 10,
    userTag := w.extractLsb' 32 32,
    src := AddrOp.ofWord (w.extractLsb' 64 64), dst := AddrOp.ofWord (w.extractLsb' 128 64),
    index := AddrOp.ofWord (w.extractLsb' 384 64), size := bitsAt x 192 32, count := bitsAt x 224 32,
    srcStride := signedOf 64 (bitsAt x 256 64), dstStride := signedOf 64 (bitsAt x 320 64),
    srcW := w.extractLsb' 64 64, dstW := w.extractLsb' 128 64, indexW := w.extractLsb' 384 64,
    rsvdZero := bitsAt x 4 12 == 0 && bitsAt x 26 6 == 0 && bitsAt x 448 64 == 0 }

/-- What validation of a descriptor answers (R167). -/
inductive DmaCheck where
  | ok | operand
  /-- The address fault, with the operand that breaks the rules. -/
  | address (a : Word)
  deriving DecidableEq, Repr

/-- Whether fields raise the operand fault (R167). A nonzero INDEX of a linear or strided descriptor raises it, as nonzero
strides do where R167 lists them (the spec names no fault for it; DESIGN CHOICE, log 89). -/
def DmaDesc.operandBad (d : DmaDesc) (self : Option DeviceNo) : Bool :=
  let other (a : AddrOp) : Bool := !a.loc && self != some a.device
  d.kind == 3 || !d.rsvdZero || (d.kind != 2 && d.indexSide)
    || (d.kind == 0 && (d.size == 0 || d.count != 0))
    || (d.kind != 0 && (decide (d.size < 64) || decide (d.size > 65536) || d.size % 64 != 0
        || decide (d.count < 1) || decide (d.count > 65536)))
    || (d.kind == 1 && (decide (d.srcStride < -(2 ^ 39)) || decide (d.srcStride ≥ 2 ^ 39)
        || decide (d.dstStride < -(2 ^ 39)) || decide (d.dstStride ≥ 2 ^ 39)))
    || (d.kind != 1 && (d.srcStride != 0 || d.dstStride != 0))
    || (d.kind == 2 && !d.index.loc) || (d.kind != 2 && d.indexW != 0)
    || (other d.src && other d.dst)

/-- The lowest byte offset and one past the highest of one side's whole range (R167). -/
def DmaDesc.range (d : DmaDesc) (base : Nat) (stride : Int) : Int × Int :=
  match d.kind with
  | 0 => (base, (base : Int) + d.size)
  | 1 =>
    let last : Int := ((d.count : Int) - 1) * stride
    ((base : Int) + min 0 last, (base : Int) + max 0 last + d.size)
  | _ => (base, (base : Int) + d.count * d.size)

/-- Whether a side's whole range lies where the issuing partition may reach; a side in another partition
or package is checked as each request is made (R167, R169). -/
def State.sideOk (s : State) (p : PartNo) (d : DmaDesc) (a : AddrOp) (stride : Int) : Bool :=
  if s.isLocal p a then
    let r := d.range a.byte stride
    decide (0 ≤ r.1) && s.extentOk p a.space a.unit r.1.toNat (r.2 - r.1).toNat
  else true

/-- The operand of a descriptor that raises the address fault (R167). -/
def State.dmaAddress (s : State) (p : PartNo) (d : DmaDesc) : Option Word :=
  if !d.src.formOk then some d.srcW
  else if !d.dst.formOk then some d.dstW
  else if d.kind = 2 ∧ (!d.index.formOk ∨ d.index.offset % 4 ≠ 0) then some d.indexW
  else if (d.kind ≠ 2 ∨ d.indexSide) ∧ !s.sideOk p d d.src d.srcStride then some d.srcW
  else if (d.kind ≠ 2 ∨ !d.indexSide) ∧ !s.sideOk p d d.dst d.dstStride then some d.dstW
  else if d.kind = 2 ∧ !s.extentOk p d.index.space d.index.unit d.index.byte (4 * d.count) then some d.indexW
  else none

/-- The checks that DMAQ makes of a descriptor (R167). -/
def State.dmaCheck (s : State) (p : PartNo) (d : DmaDesc) : DmaCheck :=
  if d.operandBad s.device then .operand
  else match s.dmaAddress p d with
    | some w => .address w
    | none => .ok

/-- Begin a channel's next descriptor, or fall idle. POISON_SEEN is that of the last descriptor until another becomes the
current one (R165, R177). -/
def DmaChan.begin (c : DmaChan) : DmaChan :=
  { c with state := if c.descs.isEmpty then 0 else 1, nextUnit := 0, nextByte := 0, out := [],
           poisonSeen := c.poisonSeen && c.descs.isEmpty,
           progress := { doneUnits := 0, valid := !c.descs.isEmpty } }

/-- Post a descriptor to a channel (R165). -/
def DmaChan.post (c : DmaChan) (x : DmaPost) : DmaChan :=
  let c1 := { c with descs := c.descs ++ [x] }
  if c.descs.isEmpty && c.state == 0 then c1.begin else c1

/-- DMA_CH_STATUS as a reader sees it (R177). -/
def DmaChan.status (c : DmaChan) : DmaChStatus :=
  match c.descs with
  | [] => { state := c.state, poisonSeen := c.poisonSeen }
  | x :: _ => { state := c.state, pending := BitVec.ofNat 4 c.descs.length, poisonSeen := c.poisonSeen,
                poster := x.poster, userTag := (DmaDesc.ofBits x.desc).userTag }

/-- The units whose writes have all been acknowledged, as a leading run (R175). -/
def DmaChan.doneUnits (c : DmaChan) : Nat :=
  c.out.foldl (fun a x => min a x.unit) (min c.nextUnit (c.failUnit.getD c.nextUnit))

/-- DMA_CH_PROGRESS follows the acknowledgements (R175). -/
def DmaChan.note (c : DmaChan) : DmaChan :=
  { c with progress := { c.progress with doneUnits := BitVec.ofNat 32 c.doneUnits } }

/-- A request of a channel is over: acknowledged, or refused or timed out (R171, R174). -/
def DmaChan.drop (c : DmaChan) (seq : Nat) (failed : Bool) : DmaChan :=
  match c.out.find? fun x => x.seq == seq with
  | some x => DmaChan.note { c with
      out := c.out.filter fun y => y.seq != seq,
      failUnit := if failed then some (min x.unit (c.failUnit.getD x.unit)) else c.failUnit }
  | none => { c with cancelled := c.cancelled.filter fun y => y.seq != seq }

/-- Remove descriptors from a channel. Requests that the current one had issued may still be performed
until the channel leaves cancelling, and the next descriptor begins only then (R176); a stopped or failed channel that
keeps descriptors waits for RESUME (R174, R177). -/
def DmaChan.cancel (c : DmaChan) (gone : DmaPost → Bool) : DmaChan :=
  match c.descs with
  | [] => c
  | x :: t =>
    if gone x then
      let c1 := { c with descs := t.filter fun y => !gone y, cancelled := c.cancelled ++ c.out.filter (fun (y : DmaPiece) => y.data.isNone), failUnit := none }.begin
      let st : BitVec 3 := if c1.descs.isEmpty then 0 else if c.state = 2 ∨ c.state = 3 then c.state else 1
      if c1.cancelled.isEmpty || st = 2 || st = 3 then { c1 with state := st }
      else { c1 with state := 4, progress := {} }
    else { c with descs := x :: t.filter fun y => !gone y }

/-- STOPPED and FAILED clear once no channel is stopped or failed (R177). -/
def DmaEng.settle (e : DmaEng) : DmaEng :=
  if e.settled && e.chans.toList.all (fun c => c.state != 2 && c.state != 3) then
    { e with status := { e.status with stopped := false, failed := false } }
  else e

/-- A channel of an engine that stops issues no write that still waits: those units are not done (R174, R175). -/
def DmaChan.stopIssue (c : DmaChan) : DmaChan :=
  (c.out.filter fun x => x.data.isSome).foldl (fun c x => c.drop x.seq true) c

/-- A bus error of a channel's request stops the engine; a second one before it has settled changes
nothing more (R174, steps 1 and 2). -/
def State.busError (s : State) (cl : Fin 32) (ch : Fin 16) (code : Code) (addr : Word) (overflow : Bool) : State :=
  s.updEng cl fun e =>
    if e.status.stopped then e
    else { e with status := { stopped := true, failed := true, failedCh := BitVec.ofNat 4 ch.val,
                              offsetOverflow := overflow, code := code }, err := addr, settled := false,
                    chans := e.chans.map DmaChan.stopIssue }

/-- Cancel, on every channel of a partition's engines, the descriptors that a predicate names (R176). -/
def State.cancelAll (s : State) (p : PartNo) (gone : DmaPost → Bool) : State :=
  ((s.part p).clusters.map (toFin 32)).foldl (fun s cl =>
    s.updEng cl fun e => DmaEng.settle { e with chans := e.chans.map fun (c : DmaChan) => c.cancel gone }) s

/-- DMAQ's body (R81, R105, R165 to R167). -/
def dmaqBody (i : Issue) (ch : Fin 16) (a : Reg) (imm : BitVec 16) : Body :=
  localBody (fun c => c.gr a + sext imm) 64 64 false i.part i.core fun key s c =>
    if s.sramPoisoned key 64 then (s, .poisoned 3)
    else
      let w : BitVec 512 := BitVec.ofNat 512 (Mem.readNat s.sram key 64)
      match s.dmaCheck i.part (DmaDesc.ofBits w) with
      | .operand => (s, .faultWith (s.dmaAddress i.part (DmaDesc.ofBits w)).isSome 2 0x0111 0)
      | .address x => (s, .fault 3 0x0207 x)
      | .ok =>
        let cl := s.coreCluster i.part i.core
        let x := s.chan cl ch
        if x.descs.length ≥ 8 then (s, .wait 3)
        else (s.setChan cl ch (x.post { desc := w, poster := BitVec.ofNat 10 i.core.val, op := c.ctx.map (·.op) }),
              .done c)

/-- Validate a DMA descriptor and post it to a channel, waiting while the channel is full (R81, R167). -/
def execDmaq (i : Issue) (ch : Fin 16) (rsvd : Bool) (a : Reg) (imm : BitVec 16) (s : State) : Out :=
  .next (s.issue i (.dmaq i ch rsvd a imm) (rsvdBody (!rsvd) (dmaqBody i ch a imm)))

end Sys2Proof.Machine
end

