-- ==== Sys2Proof/Machine/HostOps.lean ====
section
/-! DEFINITION. Mailboxes and the journal (R190 to R194, R201): acceptance, refusal, completion. -/

namespace Sys2Proof.Machine

/-- The key of a mailbox (R190). -/
def mbKey (mb : MbId) : Nat := if mb.chip then 256 + mb.n.val % 16 else mb.part.val * 64 + mb.n.val

/-- A mailbox. -/
def State.mailbox (s : State) (mb : MbId) : Mailbox := Table.get {} s.host.mailboxes (mbKey mb)

/-- Replace a mailbox. -/
def State.setMailbox (s : State) (mb : MbId) (x : Mailbox) : State :=
  { s with host := { s.host with mailboxes := Table.set {} s.host.mailboxes (mbKey mb) x } }

/-- A field of a mailbox's command (R194). -/
def Mailbox.arg (m : Mailbox) (off lo width : Nat) : Nat := bitsAt m.cmd.toNat (8 * off + lo) width

/-- The opcode of a mailbox's command (R194). -/
def Mailbox.opcode (m : Mailbox) : Nat := m.arg 0 0 16

/-- The journal entry of a sequence number (R201). -/
def State.jentry (s : State) (seq : BitVec 48) : JEntry := Table.get {} s.host.journal (seq.toNat % 4096)

/-- Replace the journal entry of a sequence number. -/
def State.setJentry (s : State) (seq : BitVec 48) (e : JEntry) : State :=
  { s with host := { s.host with journal := Table.set {} s.host.journal (seq.toNat % 4096) e } }

/-- Whether an entry is empty or final, so that its slot may be used again (R201). -/
def JEntry.reusable (e : JEntry) : Bool := e.state != 1 && e.state != 2

/-- The next sequence number: the smallest above the last whose slot may be used (R201). -/
def State.nextSeq (s : State) : Nat → BitVec 48 → BitVec 48
  | 0, last => last
  | n + 1, last =>
    let c := if last = BitVec.allOnes 48 then 1 else last + 1
    if (s.jentry c).reusable then c else s.nextSeq n c

/-- A success is a code of family 0x00 (R11). -/
def isSuccess (code : Code) : Bool := decide (code.toNat < 256)

/-- The port that sees a mailbox's block: its owner (R187, R189). -/
def State.mbOwner (s : State) (mb : MbId) : Bool := if mb.chip then s.host.chipOwner else s.owner mb.part

/-- The core rails have been removed after a trip: no command processor has power (R363, R472). -/
def State.railsGone (s : State) : Bool := s.power.status.tripped && !s.lands.coreEn

/-- Whether firmware serves: no switch-over gap, no activation pause, no halt, the core rails not removed after a trip (R193,
R243, R363, R386). -/
def State.fwLive (s : State) : Bool := s.host.service == 0 && !s.railsGone && !s.boot.status.halted

/-- A journal entry for a command at its acceptance or refusal (R201). -/
def State.newEntry (s : State) (mb : MbId) (m : Mailbox) (seq : BitVec 48) : JEntry :=
  { seq := seq, mailbox := BitVec.ofNat 6 (if mb.chip then mb.n.val % 16 else mb.n.val),
    part := if mb.chip then 0 else BitVec.ofNat 2 mb.part.val, chip := mb.chip, port := m.port,
    state := 1, opcode := BitVec.ofNat 16 m.opcode, tag := BitVec.ofNat 32 (m.arg 4 0 32),
    tAccepted := s.time }

/-- A response's bits: STATUS, TAG, SEQ, DETAIL (R194). -/
def response (status : Code) (tag : Nat) (seq : BitVec 48) (detail : Nat) : BitVec 512 :=
  packFields [(0, 16, status.toNat), (32, 32, tag), (64, 48, seq.toNat), (128, 384, detail)]

/-- Give a command its sequence number and journal entry (R192, R201). -/
def State.assignSeq (s : State) (mb : MbId) (e : JEntry) : State :=
  let s1 := (s.setJentry e.seq e)
  let s2 := { s1 with host := { s1.host with lastSeq := e.seq } }
  if mb.chip then s2 else s2.updPart mb.part fun p => { p with lastSeq := e.seq }

/-- Accept a POSTED command; work that begins at once is started (R191, R194, R201). -/
def State.acceptCmd (s : State) (mb : MbId) (startsNow : Bool) : State :=
  let m := s.mailbox mb
  let seq := s.nextSeq 4096 s.host.lastSeq
  let e := s.newEntry mb m seq
  let e1 := if startsNow then { e with tStarted := s.time, state := 2 } else e
  (s.assignSeq mb e1).setMailbox mb
    { m with resp := 0, seq := seq,
             status := { m.status with state := 2, vector := BitVec.ofNat 8 (m.arg 0 16 8), notify := m.arg 0 24 1 == 1 } }

/-- Mark a mailbox DONE with its response, and raise its vector (R191, R194, R196). -/
def State.markDone (s : State) (mb : MbId) (status : Code) (detail : Nat) : State :=
  let m := s.mailbox mb
  let s1 := s.setMailbox mb { m with resp := response status (m.arg 4 0 32) m.seq detail,
                                     status := { m.status with state := 3 } }
  if m.status.notify then s1.raiseVector (s.mbOwner mb) m.status.vector else s1

/-- Refuse a POSTED command with a code: it is journalled as failed and its mailbox is DONE (R191,
R201). -/
def State.refuseCmd (s : State) (mb : MbId) (code : Code) : State :=
  let m := s.mailbox mb
  let seq := s.nextSeq 4096 s.host.lastSeq
  let e := { s.newEntry mb m seq with state := 4, result := code, tEnded := s.time }
  ((s.assignSeq mb e).setMailbox mb
    { m with seq := seq,
             status := { m.status with vector := BitVec.ofNat 8 (m.arg 0 16 8), notify := m.arg 0 24 1 == 1 } }).markDone
    mb code 0

/-- Set an open journal entry's final state; each entry reaches one once (R201, R204). -/
def State.finalEntry (s : State) (seq : BitVec 48) (state : BitVec 3) (code : Code) (detail : Nat) : State :=
  let e := s.jentry seq
  if e.reusable || e.seq != seq then s
  else s.setJentry seq { e with state := state, result := code, tEnded := s.time, detail := BitVec.ofNat 64 detail }

/-- End an accepted command: response, journal, then DONE; 0x0705 is state abandoned (R191, R193, R194, R201). -/
def State.completeCmd (s : State) (mb : MbId) (code : Code) (detail : Nat) : State :=
  let m := s.mailbox mb
  (s.finalEntry m.seq (if isSuccess code then 3 else if code = 0x0705 then 5 else 4) code detail).markDone mb code detail

/-- Abandon an accepted command: its journal entry ends abandoned, its mailbox DONE or FREE (R193). -/
def State.abandonCmd (s : State) (mb : MbId) (free : Bool) : State :=
  let m := s.mailbox mb
  let s1 := s.finalEntry m.seq 5 0x0705 0
  if free then s1.setMailbox mb {} else s1.markDone mb 0x0705 0

/-- Whether a mailbox holds an accepted command with an opcode (R191). -/
def State.accepted (s : State) (mb : MbId) (opcode : Nat) : Bool :=
  s.fwLive && (s.mailbox mb).status.state == 2 && (s.mailbox mb).opcode == opcode

/-- End an accepted command, if the mailbox holds one of that opcode. -/
def State.command (s : State) (mb : MbId) (opcode : Nat) (f : Mailbox → State) : Out :=
  if s.accepted mb opcode then .next (f (s.mailbox mb)) else .next s

/-- A host access that is not allowed: counted in the port's PORT_VIOLATION, with no other effect (R182,
R202). -/
def State.violate (s : State) (host bar2 write : Bool) (offset : Nat) : State :=
  let i : Fin 2 := if host then 1 else 0
  let fn := s.host.ports[i]
  let v : PortViolation := { count := satInc fn.violation.count, bar := bar2, write := write, offset := BitVec.ofNat 40 offset }
  { s with host := { s.host with ports := s.host.ports.set i { fn with violation := v } } }

/-- BAR0 offset of a partition's block (R181). -/
def partBlock (p : PartNo) : Nat := 0x1000000 + p.val * 0x400000

/-- BAR0 offset of a mailbox (R190). -/
def mbOffset (mb : MbId) : Nat := (if mb.chip then 0 else partBlock mb.part) + 0x8000 + (if mb.chip then mb.n.val % 16 else mb.n.val) * 0x100

/-- The mailboxes of a partition. -/
def partMailboxes (p : PartNo) : List MbId := (List.finRange 64).map fun n => ⟨false, p, n⟩

/-- The chip mailboxes. -/
def chipMailboxes : List MbId := (List.range 16).map fun n => ⟨true, 0, toFin 64 n⟩

end Sys2Proof.Machine
end

