-- ==== Sys2Proof/Machine/Power.lean ====
section
/-! DEFINITION. Power and thermal control: caps, the estimate, the issue limiter, the slow loop, hints,
temperatures and the trip (R333 to R365, R483). -/

namespace Sys2Proof.Machine

/-- Change the power controller. -/
def State.updPower (s : State) (f : Power → Power) : State := { s with power := f s.power }

/-- The working clusters: those that are not retired (R367). -/
def State.workClusters (s : State) : List (Fin 32) := (List.finRange 32).filter fun c => !s.boot.maps[c].retired

/-- Whether a span of nanoseconds has passed since a time. -/
def State.lasted (s : State) (since : Option Word) (ns : Nat) : Bool :=
  match since with
  | some t => decide (ns ≤ (s.time - t).toNat)
  | none => false

/-- Keep the time since which a condition holds. -/
def since (old : Option Word) (cond : Bool) (now : Word) : Option Word :=
  if cond then some (old.getD now) else none

/-! ## Limits -/

/-- R334 before its floor, in hundredths of a watt. -/
def Power.capsMin (w : Power) : Nat :=
  let l := w.limits
  let rack := w.rackForce.toNat
  let p := 100 * min w.config.pMax.toNat (min rack l.trayCap.toNat)
  let p1 := if w.status.orphan then min p (max 60000 (l.orphanPct.toNat * rack)) else p
  if w.status.brake then min p1 (100 * l.brakeW.toNat) else p1

/-- P_eff in hundredths of a watt (R334). -/
def Power.pEff (w : Power) : Nat := max w.capsMin 60000

/-- Set EFFECTIVE (R334, R367). -/
def Power.recap (w : Power) : Power := { w with limits := { w.limits with effective := BitVec.ofNat 12 (w.pEff / 100) } }

/-- A power in W of some picojoules per 4 µs window, with the correction K (R336). -/
def Power.watts (w : Power) (pj : Nat) : Rat := ((pj * w.estimate.k.toNat : Nat) : Rat) / 4096000000

/-- P_eff in W. -/
def Power.pEffW (w : Power) : Rat := ((w.pEff : Nat) : Rat) / 100

/-- The sum of a list. -/
def sumNat (l : List Nat) : Nat := l.foldl (· + ·) 0

/-- All terms of a window but K (R336). -/
def activityRaw (a : Activity) : Nat :=
  sumNat a.engine + sumNat a.other + sumNat a.leak + sumNat a.memory + sumNat a.fabric + a.shared

/-- The engine term that the latest window would have with every level at 64, in W (R340). -/
def Power.engineFull (w : Power) : Rat :=
  (((List.finRange 32).map fun c => w.watts (64 * w.act.engine.getD c.val 0) / ((w.actLevels[c].toNat : Nat) : Rat)).foldl (· + ·) 0)

/-- The latest window's estimate in W (R336). -/
def Power.estW (w : Power) : Rat := w.watts (activityRaw w.act)

/-- The engine term in W (R336). -/
def Power.engineW (w : Power) : Rat := w.watts (sumNat w.act.engine)

/-! ## Issue levels -/

/-- The hint level of a cluster: 64 unless a hint has armed it (R341, R350). -/
def State.hintLevel (s : State) (c : Fin 32) : Option Nat :=
  (s.parts.toList.filterMap fun p => p.hint.bind fun h => h.levels.lookup c.val).min?

/-- The hardware limits of PWR_BRAKE, COOL_ALERT and the stall on a cluster; 64 where none acts (R341,
R365). -/
def Power.hwLimit (w : Power) (c : Fin 32) : Nat :=
  let b := if w.brakePin then w.limits.brakeLevel.toNat else 64
  let k := if w.status.cool then 1 else 64
  let t := if w.stalled then (if w.stallHot.getLsbD c.val then 1 else w.guard.stallLevel.toNat) else 64
  max 1 (min b (min k t))

/-- The level of a cluster (R341); a stall holds it but for the hardware limits (R365). -/
def State.wantLevel (s : State) (c : Fin 32) : Nat :=
  let w := s.power
  let base := if w.stalled then w.clu[c].level.toNat
    else min w.status.lPower.toNat (min w.clu[c].thermalLevel.toNat ((s.hintLevel c).getD 64))
  max 1 (min base (w.hwLimit c))

/-- FIXED_STEP clamped to MAX_STEP (R349). A step of 11 to 15 is held as written: R345's target is FIXED_STEP, though the
headline row, R348 and R349 say that fixed mode never boosts (DESIGN CHOICE, log 46). -/
def Power.fixedStep (w : Power) : Nat := min w.config.fixedStep.toNat w.config.maxStep.toNat

/-- STEP is FIXED_STEP and every cluster's level is 64 (R349). -/
def State.fixedAt (s : State) : Bool :=
  s.power.status.step.toNat == s.power.fixedStep && s.workClusters.all fun c => s.power.clu[c].level == 64

/-- FIXED_HELD clears at the first moment one of its conditions fails (R349). -/
def State.checkHeld (s : State) : State :=
  if s.power.status.fixedHeld && !(s.power.config.fixedEn && s.fixedAt) then
    s.updPower fun w => { w with status := { w.status with fixedHeld := false } }
  else s

/-- Set every cluster's level; the hardware limits act in the clusters at once (R341). -/
def State.setLevels (s : State) : State :=
  (s.workClusters.foldl (fun s c =>
    let lv := BitVec.ofNat 7 (s.wantLevel c)
    let hw := BitVec.ofNat 7 (s.power.hwLimit c)
    let s1 := s.updPower fun w => { w with clu := w.clu.set c { w.clu[c] with level := lv, hinted := (s.hintLevel c).isSome } }
    s1.updClu c fun u => if hw < u.level then { u with level := hw } else u) s).checkHeld

/-- At the release of a hardware limit, L_POWER starts from the highest level in force, so that levels rise by at most 8 per pass
(R340, R362; DEDUCED, log 46). -/
def State.releaseLimit (s : State) : State :=
  let top := (s.workClusters.map fun c => s.power.clu[c].level.toNat).foldl max 1
  s.updPower fun w => { w with status := { w.status with lPower := BitVec.ofNat 7 (min w.status.lPower.toNat top) } }

/-- A cause for which fixed mode yields acts (R349). -/
def State.yieldCause (s : State) : Bool :=
  s.lasted s.power.lpOneSince 1000000 || s.workClusters.any (fun c => s.lasted s.power.thmOneSince[c] 1000000)
    || s.power.brakePin || s.power.status.cool

/-- Keep the time at which such a cause last acted; used before each event that may end one (R349). -/
def State.noteCause (s : State) : State :=
  if s.yieldCause then s.updPower fun w => { w with yieldAt := s.time } else s

/-- The fast loop: L_POWER for the latest window, and the levels (R340, R341). -/
def State.fastPass (s0 : State) : State :=
  let s := s0.noteCause
  let w := s.power
  let room := 49 * w.pEffW / 50 - (w.estW - w.engineW)
  let full := w.engineFull
  let lp : Int := if full = 0 then 64 else max 1 (min 64 (64 * room / full).floor)
  let old := w.status.lPower.toNat
  let new := if lp.toNat > old then min lp.toNat (old + 8) else lp.toNat
  (s.updPower fun w => { w with
    status := { w.status with lPower := BitVec.ofNat 7 new },
    lpOneSince := since w.lpOneSince (new == 1) s.time }).setLevels

/-! ## Temperatures -/

/-- A junction reading is credible (R356). -/
def Power.credible (w : Power) (c : Fin 32) (n : Nat) : Option Int :=
  match Table.get none w.sensors (c.val * 8 + n) with
  | none => none
  | some t => if -80 ≤ t ∧ t ≤ 600 ∧ w.clu[c].faulty.getLsbD n = false then some t else none

/-- The credible readings of a cluster. -/
def Power.readings (w : Power) (c : Fin 32) : List Int := (List.range 8).filterMap (w.credible c)

/-- A cluster's own reading (R357). -/
def Power.ownReading (w : Power) (c : Fin 32) : Option Int :=
  if (w.readings c).length < 4 then none else (w.readings c).max?

/-- A cluster's control reading, in 0.25 °C (R357). -/
def State.controlReading (s : State) (c : Fin 32) : Int :=
  match s.power.ownReading c with
  | some t => t
  | none =>
    match ((s.workClusters.filter fun d => d.val / 8 == c.val / 8).filterMap s.power.ownReading).max? with
    | some t => t + 20
    | none => match (s.workClusters.filterMap s.power.ownReading).max? with
      | some t => t + 20
      | none => 500

/-- A temperature in an unsigned field of 10 bits. -/
def tempField (t : Int) : BitVec 10 := BitVec.ofNat 10 (min 1023 t.toNat)

/-- The cluster with the highest control reading, with it. -/
def State.hottest (s : State) : Option (Fin 32 × Int) :=
  s.workClusters.foldl (fun a c =>
    let t := s.controlReading c
    match a with
    | none => some (c, t)
    | some (_, u) => if t > u then some (c, t) else a) none

/-- Show the control readings in CLU_POWER and THM_STATUS (R357, R367). -/
def State.showTemps (s : State) : State :=
  let s1 := s.workClusters.foldl (fun s c =>
    s.updPower fun w => { w with clu := w.clu.set c { w.clu[c] with temp := tempField (s.controlReading c) } }) s
  match s1.hottest with
  | none => s1
  | some (c, t) => s1.updPower fun w => { w with thm := { w.thm with hottest := tempField t, hottestCluster := BitVec.ofNat 5 c.val } }

/-- The inlet temperature that the model uses, in 0.25 °C (R360). -/
def Power.inlet (w : Power) : Nat := if w.thm.coolantValid then w.thm.coolant.toNat else 180

/-! ## The terms of the estimate -/

/-- The energy of a cluster's counters of some kind: count × weight (R336). -/
def counterEnergy (n : Counts) (c : Nat) (kind : Fin 3) : Nat :=
  sumNat ((List.range 48).map fun i => if Config.counterKind i = kind then (n.clusters.getD c []).getD i 0 * Config.weight c i else 0)

/-- The energy of the cells that the ports moved for a partition, 4 for those in transit (R336). -/
def cellsEnergy (n : Counts) (p : Nat) : Nat :=
  sumNat ((List.range 20).map fun i => (n.cells.getD i []).getD p 0 * Config.cellEnergy i)

/-- The terms of the estimate from a window's counts, at the requested voltage and the control readings. A stack's refresh and a
port's SerDes belong to no partition's traffic, so they are shared (R336, R338; DESIGN CHOICE, log 93). -/
def State.terms (s : State) (n : Counts) : Activity :=
  let works (c : Nat) : Bool := c < 32 && !s.boot.maps[toFin 32 c].retired
  { engine := (List.range 32).map fun c => counterEnergy n c 0
    other := (List.range 32).map fun c => counterEnergy n c 1
    leak := (List.range 32).map fun c =>
      if works c then Config.leakage c s.power.volt.toNat (s.controlReading (toFin 32 c)) else 0
    memory := (List.range 4).map fun p =>
      sumNat ((List.range 12).map fun m => (n.granules.getD m []).getD p 0 * Config.granuleEnergy m)
    fabric := (List.range 4).map fun p => cellsEnergy n p
    shared := cellsEnergy n 4 + sumNat ((List.range 32).map fun c => counterEnergy n c 2)
      + sumNat ((List.range 12).map Config.refreshEnergy) + sumNat ((List.range 20).map Config.serdesEnergy)
      + sumNat ((List.range 4).map Config.fixedEnergy) }

/-! ## The slow loop -/

/-- The estimate that the current activity would give at a step with every level at 64, in W (R345). -/
def Power.predict (w : Power) (t : Nat) : Rat :=
  let f : Rat := ((w.vf.toList.getD t {}).freqMhz.toNat : Nat)
  let v : Rat := ((w.vf.toList.getD t {}).vreqMv.toNat : Nat)
  let rv := v / ((w.actVolt : Nat) : Rat)
  let leak := w.watts (sumNat w.act.leak)
  w.engineFull * (f / ((w.actFreq : Nat) : Rat)) * rv * rv + leak * rv + (w.estW - w.engineW - leak)

/-- BOOST_EN, no fixed mode, and every credible reading below 85.0 °C (R348). -/
def State.boostOk (s : State) : Bool :=
  s.power.config.boostEn && !s.power.config.fixedEn && s.workClusters.all fun c => (s.power.readings c).all (· < 340)

/-- The thermal model predicts the hottest cluster below 90.0 °C at predict(t) (R348, R360). -/
def Power.modelOk (w : Power) (t : Nat) : Bool :=
  decide (((w.inlet : Nat) : Rat) / 4 + ((w.headroom.rTh.toNat : Nat) : Rat) * w.predict t / 1000000 < 90)

/-- Whether boost is allowed at MAX_STEP (R348, R483). -/
def State.boostAllowed (s : State) : Bool := s.boostOk && s.power.modelOk s.power.config.maxStep.toNat

/-- The highest step of normal mode (R345, R348). -/
def State.topStep (s : State) : Nat :=
  if s.boostOk then s.power.config.maxStep.toNat else min s.power.config.maxStep.toNat 10

/-- hint_step: the least held (R350). -/
def State.hintStep (s : State) : Nat := (s.parts.toList.filterMap fun p => p.hint.map (·.step)).foldl min 15

/-- TARGET, and whether the thermal rules hold it below what P_eff alone would allow (R345, R483). -/
def State.slowTarget (s : State) : Nat × Bool :=
  let w := s.power
  let step := w.status.step.toNat
  if w.status.tripped || w.status.cool then (0, false)
  else if w.config.fixedEn && !w.yielding then (w.fixedStep, false)
  else
    let t0 := ((List.range (s.topStep + 1)).reverse.find? fun t =>
      decide (w.predict t ≤ w.pEffW) && (decide (t ≤ 10) || w.modelOk t)).getD 0
    let t1 := min t0 s.hintStep
    let t2 := if s.workClusters.any fun c => s.lasted w.thmLowSince[c] 1000000 then min t1 (step - 1) else t1
    let t3 := if s.workClusters.any fun c => w.clu[c].thermalLevel < 64 then min t2 step else t2
    (if t3 > step then step + 1 else t3, decide (t3 < t1))

/-- BINDING (R483). -/
def State.binding (s : State) : BitVec 3 :=
  let w := s.power
  let top := if w.status.fixed then w.fixedStep
    else if s.boostAllowed then w.config.maxStep.toNat else min w.config.maxStep.toNat 10
  if (s.workClusters.all fun c => w.clu[c].level == 64) && w.status.step.toNat == top then 0
  else if w.status.cool || w.capsMin < 60000 then 7
  else if w.thermalHold || s.workClusters.any fun c => w.clu[c].thermalLevel < 64 then 6
  else if w.status.brake then 5
  else if w.status.orphan && w.pEff == max 60000 (w.limits.orphanPct.toNat * w.rackForce.toNat) then 4
  else if w.pEff == 100 * w.limits.trayCap.toNat then 3
  else if w.pEff == 100 * w.rackForce.toNat then 2
  else 1

/-- Set BINDING (R483). -/
def State.setBinding (s : State) : State :=
  let b := s.binding
  s.updPower fun w => { w with status := { w.status with binding := b } }

/-- Fixed mode yields, and returns at the first pass after the cause has ended for 1 ms (R349). -/
def State.setYield (s : State) : State :=
  let w := s.power
  let cause := s.yieldCause
  let y := w.config.fixedEn && (cause || (w.yielding && !s.lasted (some w.yieldAt) 1000000))
  s.updPower fun w => { w with
    yielding := y, yieldAt := if cause then s.time else w.yieldAt,
    status := { w.status with fixed := w.config.fixedEn && !y } }

/-- Whether the controller's firmware runs: the CP clock's PLL is locked (from S3 on), normal service, PS0 to PS2, no
stall (R365, R369, R385). -/
def State.pwrLive (s : State) : Bool :=
  s.clocks.clk.cpLock && s.host.service == 0 && s.clocks.pkg == .run && !s.power.stalled

/-- The slow loop: TARGET, FIXED_HELD, BINDING (R345, R349, R483). A stalled controller runs none (R365). -/
def State.slowLoop (s : State) : State :=
  if !s.pwrLive then s
  else
    let s0 := s.setYield
    let held := s0.power.fixedArmed && s0.power.config.fixedEn && s0.fixedAt
    let s1 := if held then
        s0.updPower fun w => { w with fixedArmed := false, status := { w.status with fixedHeld := true } }
      else s0
    let r := s1.slowTarget
    (s1.updPower fun w => { w with
      thermalHold := r.2, status := { w.status with target := BitVec.ofNat 4 r.1 } }).setBinding

/-- A change of P_eff or of the emergency state: the slow loop runs at once, and again at the end of a step in
progress (R345, R366). -/
def State.recap (s : State) : State :=
  (s.updPower fun w => { w.recap with redo := w.redo || w.move.isSome }).slowLoop

/-! ## Voltage -/

/-- The hint margin in force (R344, R350). -/
def State.marginMv (s : State) : Nat :=
  if s.parts.toList.any fun p => match p.hint with
    | some h => h.margin
    | none => false then s.power.config.hintMarginMv.toNat else 0

/-- Recompute V_req of every step (R344). -/
def State.setVreq (s : State) : State :=
  let m := s.marginMv
  s.updPower fun w => { w with vf := vfTable w.vmin w.guard.guardMv.toNat m }

/-- V_req of a step. -/
def Power.vreq (w : Power) (t : BitVec 4) : BitVec 10 := (w.vf.toList.getD t.toNat {}).vreqMv

/-- ACLK of a step. -/
def Power.freqOf (w : Power) (t : BitVec 4) : BitVec 12 := (w.vf.toList.getD t.toNat {}).freqMhz

/-- The step whose voltage is requested: during a move, the one it leads to (R346). -/
def Power.voltStep (w : Power) : BitVec 4 :=
  match w.move with
  | some m => m.goal
  | none => w.status.step

/-- Request V_req of the step in force, or of the one that a move leads to, which may run only at its own voltage; during a stall
the requested voltage stays, and the request waits (R344, R346, R350, R365). -/
def State.requestVolt (s : State) : State :=
  if s.power.stalled then s.updPower fun w => { w with voltDue := true }
  else s.updPower fun w => { w with volt := w.vreq w.voltStep, voltDue := false }

/-! ## Hints -/

/-- P_h at a step with some clusters at a level and the rest as they run (R350). -/
def Power.hintPower (w : Power) (named : List (Fin 32)) (t level : Nat) (cur : Bool) : Rat :=
  let f : Rat := if cur then 1 else ((w.freqOf (BitVec.ofNat 4 t)).toNat : Rat) / ((w.actFreq : Nat) : Rat)
  let v : Rat := if cur then 1 else ((w.vreq (BitVec.ofNat 4 t)).toNat : Rat) / ((w.actVolt : Nat) : Rat)
  let leak := w.watts (sumNat w.act.leak)
  let rest := w.watts (sumNat ((List.finRange 32).map fun c => if named.contains c then 0 else w.act.engine.getD c.val 0))
  let new := (named.map fun c => w.watts (Config.engineFull c.val t * level) / 64).foldl (· + ·) 0
  rest * f * v * v + new + leak * v + (w.estW - w.engineW - leak)

/-- The hint levels of a partition reach its clusters at once, before their ramp (R350). -/
def State.hintAtOnce (s : State) (p : PartNo) : State :=
  match (s.part p).hint with
  | none => s
  | some h => h.levels.foldl (fun t (x : Nat × Nat) =>
      let lv := BitVec.ofNat 7 x.2
      t.updClu (toFin 32 x.1) fun u => if lv < u.level then { u with level := lv } else u) s

/-- The hint of a partition ends or is replaced: levels, margin and HINT_HELD follow (R350). -/
def State.putHint (s : State) (p : PartNo) (h : Option Hint) : State :=
  let old := s.marginMv
  let s1 := (s.updPart p fun q => { q with hint := h }).setVreq
  let s2 := if s1.marginMv = old then s1 else s1.requestVolt
  let held := s2.parts.toList.any fun q => q.hint.isSome
  ((s2.updPower fun w => { w with status := { w.status with hintHeld := held } }).setLevels).hintAtOnce p

/-- The controller takes a hint: a voltage preparation, or armed clusters (R350). -/
def State.takeHint (s : State) (p : PartNo) (level lead : Nat) (named : List (Fin 32)) : State :=
  if level = 0 then s.putHint p none
  else
    let w := ((s.updPart p fun q => { q with hint := none }).setVreq).power
    let until_ := s.time + BitVec.ofNat 64 (lead * 1000 + 1000000)
    let step := w.status.step.toNat
    if w.hintPower named step level true ≤ w.pEffW then s.putHint p (some { margin := true, until_ := until_ })
    else
      let lim := 49 * w.pEffW / 50
      let hl := (((List.range 64).map (64 - ·)).find? fun x => decide (w.hintPower named step x true ≤ lim)).getD 1
      let hs := ((List.range (w.config.maxStep.toNat + 1)).reverse.find? fun t =>
        decide (w.hintPower named t level (t == step) ≤ w.pEffW)).getD 0
      (s.putHint p (some { margin := false, levels := named.map fun c => (c.val, hl), step := hs, until_ := until_ })).slowLoop

/-! ## The emergency floor -/

/-- The bandwidth fraction that a stack's temperature gives, in 1/640 (R359). -/
def bwFormula (t : Nat) : Nat := if t < 340 then 640 else 640 - 8 * (t - 340)

/-- A stack's bandwidth fraction follows its temperature; in the emergency it is at most 1/4 (R359, R362). -/
def State.setBw (s : State) (m : Fin 12) (halve : Bool) : State :=
  let t := s.hbm.mcs[m].temp
  let old := s.power.bw[m]
  let b0 := if !t.valid then old
    else if t.temp.toNat ≤ 380 then bwFormula t.temp.toNat else if halve then max 80 (old / 2) else old
  let b := if s.power.status.cool then min 160 b0 else b0
  (s.updPower fun w => { w with bw := w.bw.set m b }).updMc m fun x => { x with status := { x.status with bwLimited := decide (b < 640) } }

/-- The emergency floor comes into force: COOL, TARGET 0, level 1 everywhere, a quarter of every stack's
bandwidth (R362). -/
def State.emergency (s : State) : State :=
  let s1 := s.updPower fun w => { w with status := { w.status with cool := true, target := 0 } }
  let s2 := (List.finRange 12).foldl (fun t m => t.setBw m false) s1
  ((s2.setLevels).setYield).recap

/-! ## Settings -/

/-- Clamp a cap (R333). -/
def Power.clampCap (w : Power) (x : BitVec 12) : BitVec 12 := BitVec.ofNat 12 (max 600 (min w.config.pMax.toNat x.toNat))

/-- P_eff follows the entry to orphan mode or its end (R334, R443, R444). -/
def State.setOrphan (s : State) (on : Bool) : State :=
  (s.updPower fun w => { w with status := { w.status with orphan := on },
                                rackForce := if on then w.rackForce else w.limits.rackCap }).recap

/-- Apply a cap or setting (R333, R334, R349). -/
def State.applySetting (s : State) (x : PwrSetting) : State :=
  match x with
  | .caps rack tray brakeW brakeLevel orphanPct =>
    let l := s.power.limits
    let c := s.power.clampCap
    let s1 := s.updPower fun w =>
      let l1 := { l with
        rackCap := (rack.map c).getD l.rackCap, trayCap := (tray.map c).getD l.trayCap, brakeW := (brakeW.map c).getD l.brakeW,
        brakeLevel := (brakeLevel.map fun b => BitVec.ofNat 7 (max 1 (min 64 b.toNat))).getD l.brakeLevel,
        orphanPct := (orphanPct.map fun b => BitVec.ofNat 7 (max 50 (min 100 b.toNat))).getD l.orphanPct }
      { w with limits := l1, rackForce := if w.status.orphan then w.rackForce else l1.rackCap }
    let s2 := (s1.recap).setLevels
    let low := [rack, tray, brakeW].any fun x => match x with
      | some b => decide (b.toNat < 600)
      | none => false
    if low then s2.eventChip 0x0503 0 (s2.power.pEff / 100) else s2
  | .config fixedEn fixedStep boostEn hintMargin droopMv stallLevel =>
    let s1 := s.updPower fun w =>
      let c := w.config
      let en := fixedEn.getD c.fixedEn
      { w with
        config := { c with fixedEn := en, fixedStep := fixedStep.getD c.fixedStep, boostEn := boostEn.getD c.boostEn,
                           hintMarginMv := hintMargin.getD c.hintMarginMv },
        guard := { w.guard with droopMv := droopMv.getD w.guard.droopMv,
                                stallLevel := (stallLevel.map fun b => BitVec.ofNat 7 (max 1 (min 64 b.toNat))).getD w.guard.stallLevel },
        fixedArmed := if en && !c.fixedEn then true else w.fixedArmed && en,
        status := { w.status with fixed := en && !w.yielding } }
    let s2 := (s1.checkHeld).setVreq
    if s2.marginMv = s.marginMv then s2 else s2.requestVolt
  | .orphan on => s.setOrphan on

/-- A start has not passed S3 yet (R401). -/
def State.preS3 (s : State) : Bool := (s.boot.starting || s.boot.startDue) && decide (s.boot.status.stage.toNat ≤ 3)

/-- PWR_BRAKE and COOL_ALERT are only recorded: without bedrock power, in PS3 and PS4, and before S3 of a start has been passed; they
act from then on if they are still asserted (R383, R401, R481). -/
def State.pinsHeld (s : State) : Bool := !s.lands.bedrockPg || s.clocks.pkg != .run || s.preS3

/-- A cap or setting takes effect, or waits while the controller stalls or until S3 (R365, R401). -/
def State.setting (s : State) (x : PwrSetting) : State :=
  if s.power.stalled || s.preS3 then s.updPower fun w => { w with settings := w.settings ++ [x] } else s.applySetting x

end Sys2Proof.Machine
end

