-- ==== Sys2Proof/Machine/StreamOps.lean ====
section
/-! DEFINITION. Strata, jobs and streams (R208 to R245): the records' fields, phases, the launch and
abort of contexts (R217, R410), the early end of a stream (R241), END. -/

namespace Sys2Proof.Machine

/-! ## Stratum records -/

/-- A field of a stratum header (R226). -/
def Stratum.field (t : Stratum) (off lo width : Nat) : Nat := bitsAt t.header.toNat (8 * off + lo) width

/-- CORES_PER_CLUSTER (R226). -/
def Stratum.coresPer (t : Stratum) : Nat := t.field 0x08 8 6

/-- LOGICAL_CLUSTERS (R226). -/
def Stratum.clusters (t : Stratum) : Nat := t.field 0x08 0 6

/-- The persistent ranges of nonzero length: offset and length (R226). -/
def Stratum.persist (t : Stratum) : List (Nat × Nat) :=
  ((List.range 4).map fun i => (t.field (0x60 + 8 * i) 0 32, t.field (0x60 + 8 * i) 32 32)).filter
    fun x => x.2 != 0

/-- The bytes of one core slot of the save area (R231). -/
def Stratum.slotSize (t : Stratum) : Nat := roundUp (256 + (t.persist.map (·.2)).foldl (· + ·) 0) 256

/-- The used logical cores (R226, R231). -/
def Stratum.cores (t : Stratum) : List (Fin 1024) :=
  ((List.range t.clusters).map fun l => (List.range t.coresPer).map fun i => toFin 1024 (32 * l + i)).flatten

/-- Where a used core's slot lies (R231). -/
def Stratum.slotAt (t : Stratum) (k : Fin 1024) : Nat :=
  t.field 0x58 0 40 + (k.val / 32 * t.coresPer + k.val % 32) * t.slotSize

/-- Segment table entry: image offset, length, entry (R226). -/
def Stratum.segment (t : Stratum) (n : Nat) : Option (Nat × Nat × Nat) :=
  (t.segs[n]?).map fun w => (bitsAt w.toNat 0 32, bitsAt w.toNat 32 32, bitsAt w.toNat 64 32)

/-- A field of a queue layout entry (R227). -/
def qField (e : BitVec 256) (off lo width : Nat) : Nat := bitsAt e.toNat (8 * off + lo) width

/-- A resident stratum. -/
def State.stratum (s : State) (p : PartNo) (n : Nat) : Option Stratum := (s.part p).strata.lookup n

/-- The eight windows of a stratum (R226, R230). -/
def Stratum.windows (t : Stratum) : Vector MemWindow 8 :=
  Vector.ofFn fun n => MemWindow.ofWord (BitVec.ofNat 64 (t.field (0x80 + 8 * n.val) 0 64))

/-! ## Stream records -/

/-- A field of an operation record (R215, R216). -/
def opField (w : BitVec 512) (off lo width : Nat) : Nat := bitsAt w.toNat (8 * off + lo) width

/-- OP (R215). -/
def opCode (w : BitVec 512) : Nat := opField w 0 0 8

/-- PART: 0 prologue, 1 body, 2 epilogue (R215). -/
def opPart (w : BitVec 512) : Nat := opField w 0 8 2

/-- PHASE (R215). -/
def opPhase (w : BitVec 512) : Nat := opField w 0 16 16

/-- SIGNAL, where it is used (R215). -/
def opSignal (w : BitVec 512) : Option Nat :=
  if opField w 4 0 16 = 0xFFFF then none else some (opField w 4 0 16)

/-- The WAIT tokens that are used (R215). -/
def opWaits (w : BitVec 512) : List Nat :=
  ((List.range 4).map fun i => opField w (8 + 2 * i) 0 16).filter (· != 0xFFFF)

/-- The indices, parts and states of the records of a phase. -/
def Stream.phaseOps (x : Stream) (k : Nat) : List (Nat × OpState) :=
  ((x.ops.zip x.opStates).filter fun o => opPhase o.1 == k).map fun o => (opPart o.1, o.2)

/-- Every operation of a part of a phase has completed (R221). -/
def Stream.partDone (x : Stream) (k part : Nat) : Bool :=
  (x.phaseOps k).all fun o => o.1 != part || o.2 == .completed

/-- A phase has ended (R221). -/
def Stream.phaseEnded (x : Stream) (k : Nat) : Bool :=
  decide (k < x.opened) && (x.phaseOps k).all fun o => o.2 == .completed

/-- The body condition of a phase (R221). -/
def Stream.bodyOk (x : Stream) (k : Nat) : Bool := x.partDone k 0 && (k == 0 || x.partDone (k - 1) 1)

/-- Whether phase k may open (R220, R221). DESIGN CHOICE (log 86): the first body operation of a phase has started once any of
its body operations has. -/
def Stream.mayOpen (x : Stream) (k : Nat) : Bool :=
  if k = 0 then true
  else
    let body := (x.phaseOps (k - 1)).filter fun o => o.1 == 1
    decide (k - 1 < x.opened)
      && (if body.isEmpty then x.bodyOk (k - 1) else body.any fun o => o.2 != .waiting)
      && (k == 1 || x.phaseEnded (k - 2))
      && (x.ops.zip x.opStates).all fun o => opPhase o.1 != k - 1 || opCode o.1 != 9 || o.2 == .completed

/-- The tokens declared for a phase: number and target (R214). -/
def Stream.declared (x : Stream) (k : Nat) : List (Nat × Nat) :=
  (x.decls.filter fun d => bitsAt d.toNat 32 16 == k).map fun d => (bitsAt d.toNat 0 16, bitsAt d.toNat 16 16)

/-- Set a partition's phase token. -/
def State.setToken (s : State) (p : PartNo) (t : Nat) (x : PhaseToken) : State :=
  s.updPart p fun y => { y with tokens := Table.set {} y.tokens t x }

/-- Arm the tokens of a phase (R220). -/
def State.armPhase (s : State) (p : PartNo) (ds : List (Nat × Nat)) : State :=
  ds.foldl (fun s d => s.setToken p d.1 { target := BitVec.ofNat 16 d.2, armed := true }) s

/-- Change the running stream. -/
def State.updStream (s : State) (p : PartNo) (f : Stream → Stream) : State :=
  s.updPart p fun y => { y with stream := y.stream.map f }

/-- Open every phase whose prologue's condition holds (R220, R221). -/
def State.openPhases (s : State) (p : PartNo) : Nat → State
  | 0 => s
  | n + 1 => match (s.part p).stream with
    | none => s
    | some x =>
      if x.ending.isNone && decide (x.opened < x.phases) && x.mayOpen x.opened then
        ((s.updStream p fun y => { y with opened := x.opened + 1 }).armPhase p (x.declared x.opened)).openPhases p n
      else s

/-- Whether operation `i` is eligible (R221, R233). -/
def State.eligible (s : State) (p : PartNo) (x : Stream) (i : Nat) : Bool :=
  match x.ops[i]?, x.opStates[i]? with
  | some w, some .waiting =>
    let k := opPhase w
    decide (k < x.opened)
      && (opPart w != 1 || x.bodyOk k) && (opPart w != 2 || x.partDone k 1)
      && (opWaits w).all (fun t => (s.token p t).isComplete)
      && (opCode w != 9 || (x.opStates.take i).all (· == .completed))
  | _, _ => false

/-- STRM_POS after an operation has started (R244). -/
def Stream.pos (x : Stream) (old : StrmPos) : StrmPos :=
  let bodies := (x.ops.zip x.opStates).filter fun o => opPart o.1 == 1 && o.2 != .waiting
  { old with
    phase := BitVec.ofNat 16 ((bodies.map fun o => opPhase o.1).foldl max old.phase.toNat),
    nextOp := BitVec.ofNat 16 ((x.opStates.findIdx? (· == .waiting)).getD x.opStates.length) }

/-- Start an operation: the first eligible record in ascending order, of the code given, while firmware
serves (R221, R243). -/
def State.startOp (s : State) (p : PartNo) (i code : Nat) (f : State → Stream → BitVec 512 → State) : State :=
  match (s.part p).stream with
  | none => s
  | some x =>
    match x.ops[i]? with
    | none => s
    | some w =>
      if s.fwLive && s.partLive p && (s.part p).strmStatus.state == 2 && x.ending.isNone && opCode w == code
          && s.eligible p x i && (List.range i).all (fun j => !s.eligible p x j) then
        let y := { x with opStates := x.opStates.set i .started }
        let s1 := s.updPart p fun q => { q with stream := some y, strmPos := y.pos q.strmPos }
        f (s1.openPhases p x.phases) y w
      else s

/-! ## Jobs -/

/-- A job's status (R211, R235). -/
def Job.status (j : Job) : Code :=
  if j.fail ≠ 0 then j.fail else if j.poisoned then 0x0201 else if j.notClaimed ≠ 0 then 0x0010 else 0

/-- Change the current job. -/
def Stream.updJob (x : Stream) (f : Job → Job) : Stream :=
  match x.jobs.reverse with
  | [] => x
  | j :: t => { x with jobs := (f j :: t).reverse }

/-- The current job, if one runs. -/
def Stream.job (x : Stream) : Option Job :=
  match x.jobs.getLast? with
  | some j => if j.ended then none else some j
  | none => none

/-- The current stratum of a partition's stream. -/
def State.current (s : State) (p : PartNo) : Option Stratum :=
  match (s.part p).stream with
  | none => none
  | some x => match x.job with
    | none => none
    | some j => s.stratum p j.stratum.toNat

/-- A PART_ENERGY register for an account counted in picojoules (R368). -/
def microjoules (x : Nat) : Word := BitVec.ofNat 64 (x / 1000000)

/-- The energy record of the current job (R238). -/
def State.energyRec (s : State) (p : PartNo) (x : Stream) (j : Job) (checkpoint : Bool) : EnergyRec :=
  let e := (s.part p).energy
  let b := (s.part p).energyAt
  { seq := x.seq, job := BitVec.ofNat 8 (x.jobs.length - 1), stratum := j.stratum, checkpoint := checkpoint,
    calibrated := j.calibrated, tStart := j.tStart, tEnd := s.time,
    total := microjoules e.total - microjoules b.total, compute := microjoules e.compute - microjoules b.compute,
    memory := microjoules e.memory - microjoules b.memory, fabric := microjoules e.fabric - microjoules b.fabric,
    status := if checkpoint then 0 else j.status }

/-- The 64 bytes of an energy record (R238). -/
def EnergyRec.bytes (e : EnergyRec) : List Byte :=
  bytesOfNat 64 (packFields (n := 512) [(0, 48, e.seq.toNat), (48, 8, e.job.toNat), (56, 6, e.stratum.toNat),
    (62, 1, if e.checkpoint then 1 else 0), (63, 1, if e.calibrated then 1 else 0), (64, 64, e.tStart.toNat),
    (128, 64, e.tEnd.toNat), (192, 64, e.total.toNat), (256, 64, e.compute.toNat), (320, 64, e.memory.toNat),
    (384, 64, e.fabric.toNat), (448, 16, e.status.toNat)]).toNat

/-- End the current job: its status, its final energy record, its windows (R211, R230, R239, R240). -/
def State.endJob (s : State) (p : PartNo) (fail : Code) : State :=
  match (s.part p).stream with
  | none => s
  | some x => match x.job with
    | none => s
    | some _ =>
      let y := x.updJob fun j => { j with ended := true, fail := if j.fail = 0 then fail else j.fail }
      match y.jobs.getLast? with
      | none => s
      | some j => s.updPart p fun q =>
          let q1 := { q with stream := some y, windows := Vector.replicate 8 {}, records := q.records ++ [s.energyRec p x j false] }
          if q.records.length < 256 then q1
          else match q.records with
            | [] => q1
            | r :: _ => { q1 with records := q1.records.drop 1,
                                  lost := Table.upd 0 q.lost r.seq.toNat (· + 1) }

/-- The moves of a used core's persistent ranges between its core slot and its scratchpad: save-area address, SRAM, bytes
(R231). `space` is the side in whose pieces the source is read. -/
def State.persistMoves (s : State) (p : PartNo) (t : Stratum) (space : BitVec 2) (k : Fin 1024) : List (Nat × Nat × Nat) :=
  (t.persist.foldl (fun (a : List (Nat × Nat × Nat) × Nat) x =>
    (a.1 ++ (pieces space (if space = 0 then a.2 else x.1) x.2).map fun c =>
      let off := c.1 - (if space = 0 then a.2 else x.1)
      (a.2 + off, s.spaceAt p 1 k.val (x.1 + off), c.2), a.2 + x.2)) ([], t.slotAt k + 256)).1

/-- Channel 15 of every cluster has moved a save or a restore. The number of descriptors it took, and whether the last of
them carried poison, are open: COUNT advances by a free number (R171, R172, R235; log 86). -/
def State.countMoves (s : State) (p : PartNo) (poison : Bool) : State :=
  ((s.part p).clusters.map (toFin 32)).foldl (fun s cl =>
    let c := s.chan cl 15
    let n := Config.freeNat s.freeCtr
    let hit := decide (c.count.irqAt ≠ 0) && decide ((c.count.irqAt - c.count.count - 1).toNat < n)
    (s.bump.setChan cl 15 { c with
      count := { c.count with count := c.count.count + BitVec.ofNat 32 n }, irqPending := c.irqPending || hit,
      poisonSeen := if n = 0 then c.poisonSeen else poison && Config.freeNat s.bump.freeCtr % 2 == 1 }).bump) s

/-- Save a stratum's persistent state: the carry sets and persistent ranges of its used cores (R231,
R232). -/
def State.saveStratum (s : State) (p : PartNo) (t : Stratum) : State :=
  let r := t.cores.foldl (fun s k =>
    let regs := (List.range 32).map fun n =>
      if n = 0 ∨ n = 31 then zeros 8 else bytesOfNat 8 ((s.core p k).carry.toList.getD n 0).toNat
    (s.persistMoves p t 0 k).foldl (fun s m => s.stackWrite p m.1 (Mem.read s.sram m.2.1 m.2.2) (s.sramPoisoned m.2.1 m.2.2))
      (s.stackWrite p (t.slotAt k) regs.flatten false)) s
  r.countMoves p (t.cores.any fun k => (s.persistMoves p t 0 k).any fun m => s.sramPoisoned m.2.1 m.2.2)

/-- Restore a stratum's persistent state (R232). The second result says that a core slot's register
bytes read as poisoned. -/
def State.restoreStratum (s : State) (p : PartNo) (t : Stratum) : State × Bool :=
  t.cores.foldl (fun (r : State × Bool) k =>
    let s := r.1.meetOwners p (t.slotAt k) (t.slotSize)
    let base := t.slotAt k
    let bad := s.stackPoisoned p base 256
    let carry : Vector Word 32 := Vector.ofFn fun n =>
      if n.val = 0 ∨ n.val = 31 ∨ bad = true then 0 else BitVec.ofNat 64 (s.stackNat p (base + 8 * n.val) 8)
    let s1 := s.updCore p k fun c => { c with carry := carry }
    ((s.persistMoves p t 1 k).foldl (fun s m => s.putSram m.2.1 (s.stackRead p m.1 m.2.2).1 (s.stackRead p m.1 m.2.2).2) s1,
     r.2 || bad)) (s, false)

/-- A peer named by rank, core and queue in a queue layout entry (R227). -/
def Stream.peer (x : Stream) (e : BitVec 256) (off : Nat) (bindGen : BitVec 8) : QPeer :=
  let r := (x.ranks.getD (qField e off 0 16) 0).toNat
  { device := BitVec.ofNat 14 (bitsAt r 0 14), part := BitVec.ofNat 2 (bitsAt r 14 2),
    core := BitVec.ofNat 10 (qField e off 16 10), queue := BitVec.ofNat 3 (qField e off 26 3), bindGen := bindGen }

/-- QIN_CFG as an entry gives it (R227, R230). -/
def entryCfg (e : BitVec 256) : QinCfg :=
  { enable := true, host := qField e 0 18 1 == 1, hostSlot := BitVec.ofNat 4 (qField e 0 19 4),
    screeBase := BitVec.ofNat 28 (qField e 8 12 28), screePages := BitVec.ofNat 15 (qField e 8 40 15) }

/-- Whether an entry of a set bars its binding (R230). -/
def State.entryBad (s : State) (p : PartNo) (x : Stream) (bindGen : BitVec 8) (e : BitVec 256) : Bool :=
  let k : Fin 1024 := toFin 1024 (qField e 0 0 10)
  let q : Fin 8 := toFin 8 (qField e 0 10 3)
  (qField e 0 17 1 == 1 && (decide (qField e 0x10 0 16 ≥ x.ranks.length) || (s.qin p k q).heldGen == some bindGen))
    || (qField e 0 31 1 == 1 && (decide (qField e 0x14 0 16 ≥ x.ranks.length) || (s.qout p k q).heldGen == some bindGen))

/-- Write the bindings of one entry (R230). -/
def State.bindEntry (s : State) (p : PartNo) (x : Stream) (bindGen : BitVec 8) (e : BitVec 256) : State :=
  let k : Fin 1024 := toFin 1024 (qField e 0 0 10)
  let q : Fin 8 := toFin 8 (qField e 0 10 3)
  let s1 := if qField e 0 17 1 = 1 then
      (s.resetSide p k q).enableSide p k q (entryCfg e) (x.peer e 0x10 bindGen) (BitVec.ofNat 8 (qField e 0 23 8))
    else s
  if qField e 0 31 1 = 1 then s1.bindOut p k q (x.peer e 0x14 bindGen) true else s1

/-- Bind a queue set of the current stratum; none when R230 bars it. -/
def State.bindSet (s : State) (p : PartNo) (x : Stream) (t : Stratum) (set_ : Nat) (bindGen : BitVec 8) : Option State :=
  let es := t.queues.filter fun e => qField e 0 13 4 == set_
  if es.any (s.entryBad p x bindGen) then none
  else some (es.foldl (fun s e => s.bindEntry p x bindGen e) s)

/-- What STRATUM_LOAD prepares of a stratum, by the stream's rank table (R227, R234). -/
def State.prepare (s : State) (p : PartNo) (x : Stream) (t : Stratum) : StratumPrep :=
  { windows := t.windows,
    bindings := (t.queues.filter fun e => qField e 0 13 4 == 0).map fun e => (e, x.peer e 0x10 0, x.peer e 0x14 0),
    moves := (t.cores.map (s.persistMoves p t 1)).flatten,
    staging := (List.range t.segs.length).map fun n => match t.segment n with
      | none => []
      | some (off, len, _) => (s.stackRead p (t.field 0x10 0 40 + off) (min len 65536)).1 }

/-- Whether some rank of a stream lies in another package (R213). -/
def State.reachesOut (s : State) (x : Stream) : Bool := x.ranks.any fun r => s.device != some (r.extractLsb' 0 14)

/-- Begin a job: restore, set 0 bound, windows, seed (R209, R210, R230, R232, R235). The second result is
the failure, if there is one. Firmware versions differ within a job only between packages, and no message of the spec carries
them: that condition of R38 is a free choice for a job that spans packages (log 86). -/
def State.beginJob (s : State) (p : PartNo) (n : Nat) (seedValid : Bool) (seed : Word) (bindGen : BitVec 8) :
    State × Option Code :=
  match s.stratum p n, (s.part p).stream with
  | some t, some x =>
    let r0 := s.restoreStratum p t
    let differ := s.reachesOut x && Config.freeNat r0.1.freeCtr % 2 == 1
    let r := ((r0.1.bump.countMoves p (t.cores.any fun k => (s.persistMoves p t 1 k).any fun m => s.stackPoisoned p m.1 m.2.2)), r0.2)
    if r.2 then (r.1, some 0x0201)
    else
      let j : Job := { stratum := BitVec.ofNat 6 n, seed := if seedValid then seed else s.time,
                       notClaimed := BitVec.ofNat 3 ((if t.field 0x0C 0 1 = 1 then 1 else 0) + (if seedValid then 0 else 2)
                         + (if differ then 4 else 0)),
                       tStart := s.time, calibrated := s.power.status.calibrating }
      let y := { x with jobs := x.jobs ++ [j], groups := [], claimed := [] }
      let s1 := r.1.updPart p fun q => { q with
        stream := some y, energyAt := q.energy, windows := t.windows,
        colStatus := {},
        strmPos := { q.strmPos with job := BitVec.ofNat 8 x.jobs.length },
        strmStatus := { q.strmStatus with state := 2, stratum := BitVec.ofNat 6 n } }
      match s1.bindSet p y t 0 bindGen with
      | none => (s1, some 0x0102)
      | some s2 => ((s2.partCores p).foldl (fun s k => s.updCore p k fun c => { c with seed := j.seed }) s2, none)
  | _, _ => (s, some 0x0108)

/-! ## Contexts -/

/-- Start a context on a core (R77, R217, R316): `gs` are g1 to g31. -/
def State.startContext (s : State) (p : PartNo) (k : Fin 1024) (x : Ctx) (entry : Nat) (gs : Vector Word 32)
    (seed : Word) (poisonTrap : Bool) : State :=
  s.updCore p k fun c =>
    let c1 : Core := { carry := c.carry, lost := c.lost, g := gs, pc := BitVec.ofNat 64 entry,
                       ctrl := { poisonTrap := poisonTrap }, state := 1, seed := seed, ctx := some x }
    if entry ≥ x.segLen then c1.raise 0 3 0x0207 (BitVec.ofNat 64 x.segLen) (BitVec.ofNat 64 x.segLen) else c1

/-- Whether a context may start on a core: none runs, it reads idle, and no write of a cancelled
descriptor may still reach its scratchpad (R76, R176, R410). -/
def State.coreFree (s : State) (p : PartNo) (k : Fin 1024) : Bool :=
  let c := s.core p k
  c.ctx.isNone && c.state == 0 && !c.aborting && !c.lost && !c.ctrl.halt
    && ((s.part p).clusters.map (toFin 32)).all fun cl =>
      s.dma[cl].chans.toList.all fun ch => ch.cancelled.all fun (w : DmaPiece) =>
        !(bitsAt w.dst.toNat 56 2 == 1 && bitsAt w.dst.toNat 24 10 == k.val)

/-- The descriptor hash (R319). -/
def collectiveHash (kind op type lanes n root count group seq : Nat) (dst : Word) : Word :=
  let w0 := BitVec.ofNat 64 (kind + op * 4 + type * 16 + lanes * 256 + n * 65536 + root * 2 ^ 32)
  let h := mix64 (mix64 (mix64 w0 ^^^ BitVec.ofNat 64 count) ^^^ BitVec.ofNat 64 (group * 2 ^ 32 + seq))
  if kind = 2 then mix64 (h ^^^ dst) else h

/-- g24 to g30 of a lane context (R316). -/
def laneRegs (w : BitVec 512) (g : Group) (c : Coll) (lane : Nat) : Vector Word 32 :=
  let lanes := g.lanes.length
  let count := opField w 0x30 0 32
  let slice := count / lanes
  let l := g.lanes.getD lane ⟨0, 0, 0⟩
  Vector.ofFn fun r => match r.val with
    | 24 => packFields [(0, 16, g.number.toNat), (16, 2, opField w 0x12 0 2), (18, 2, opField w 0x12 2 2),
        (20, 4, opField w 0x12 4 4), (24, 4, lane), (28, 5, lanes)]
    | 25 => packFields [(0, 32, c.seq.toNat), (32, 10, g.pos), (42, 11, g.ranks.length), (53, 10, opField w 0x16 0 10)]
    | 26 => c.hash
    | 27 => BitVec.ofNat 64 (opField w 0x20 0 64)
    | 28 => BitVec.ofNat 64 (opField w 0x28 0 64)
    | 29 => packFields [(0, 32, count), (32, 32, lane * slice)]
    | 30 => packFields [(0, 3, l.inQ), (3, 3, l.outQ), (32, 32, slice)]
    | _ => 0

/-- Start the context of an operation on a free core (R217, R316). -/
def State.launchOn (s : State) (p : PartNo) (x : Stream) (j : Job) (t : Stratum) (u : Due) : State :=
  match x.ops[u.op]? with
  | none => s
  | some w =>
    let lane := opCode w == 6
    match t.segment (if lane then opField w 0x14 0 16 else opField w 0x10 0 16) with
    | none => s
    | some (off, len, entry) =>
      let c : Ctx := { op := u.op, lane := lane, laneNo := u.lane, imageBase := t.field 0x10 0 40 + off, segLen := len }
      let gs : Vector Word 32 :=
        if lane then match x.colls.find? fun c => c.op == u.op with
          | none => Vector.replicate 32 0
          | some cl => match x.groups.find? fun g => g.number == cl.group with
            | none => Vector.replicate 32 0
            | some g => laneRegs w g cl u.lane
        else (s.core p u.core).carry.set 31 (BitVec.ofNat 64 (opField w 0x20 0 64))
      s.startContext p u.core c entry gs j.seed (t.field 0x0C 2 1 == 1)

/-- Start the delayed launches whose cores are free, while firmware serves (R217, R243). -/
def State.launchReady (s : State) (p : PartNo) : State :=
  match (s.part p).stream, s.current p with
  | some x, some t => match x.job with
    | none => s
    | some j =>
      if !s.fwLive || x.ending.isSome then s
      else x.toLaunch.foldl (fun s o =>
        if s.coreFree p o.core then
          (s.updStream p fun y => { y with toLaunch := y.toLaunch.filter (· != o) }).launchOn p x j t o
        else s) s
  | _, _ => s

/-- END's effect: the context ends, its carry set is kept; a context that consumed poison marks its job
(R76, R106, R231, R316). -/
def State.endCtx (s : State) (p : PartNo) (k : Fin 1024) (c : Core) (x : Ctx) : State × Core :=
  let c1 := { c with ctx := none, state := 0, held := none, bar := .none,
                     carry := if x.lane then c.carry else (c.g.set 0 0).set 31 0 }
  let s1 := if c.poison.consumed then s.updStream p fun y => y.updJob fun j => { j with poisoned := true } else s
  let s2 := if x.lane then s1.updPart p fun q => { q with
      colMcast := q.colMcast.map fun m => if m.core == BitVec.ofNat 10 k.val then { m with armed := false } else m } else s1
  (s2, c1)

/-- END's body: wait for all outstanding work, then end the context (R76, R81). -/
def endBody (i : Issue) : Body := fun s c =>
  if !c.mms.isEmpty || !s.acksDone i.part i.core then (s, .wait 1)
  else match c.ctx with
    | none => (s, .done c)
    | some x =>
      let r := s.endCtx i.part i.core c x
      (r.1, .as r.2)

/-- End the context once all its outstanding work has completed; barriers that waited for no other core are released,
and launches that waited for the core start (R76, R81, R95, R217). -/
def execEndContext (i : Issue) (rsvd : BitVec 26) (s : State) : Out :=
  let t := s.issue i (.endContext i rsvd) (rsvdBody (rsvd == 0) (endBody i))
  match (s.core i.part i.core).ctx, (t.core i.part i.core).ctx with
  | some x, none => .next ((t.barrierLeft i.part x.op).launchReady i.part)
  | _, _ => .next t

/-! ## The early end of a stream -/

/-- Flush and break the queues of an aborted core (R156, R159). -/
def State.abortQueues (s : State) (p : PartNo) (k : Fin 1024) : State :=
  (List.finRange 8).foldl (fun s q =>
    let s1 := if (s.qin p k q).cfg.enable && !(s.qin p k q).cfg.host then s.flush p k q 0x0124 else s
    let b := s1.qout p k q
    if b.valid then
      (s1.setQout p k q { b with unacked := 0, breakReason := if b.st.broken then b.breakReason else 0x0122,
                                 st := { b.st with broken := true } }).send (noticePkt s1 p b.dst 0x0122 true)
    else s1) s

/-- Begin a context abort: HALT, queues flushed and broken, the context's descriptors cancelled (R410,
steps 1 and 3). -/
def State.beginAbort (s : State) (p : PartNo) (k : Fin 1024) : State :=
  let c := s.core p k
  if c.ctx.isNone || c.aborting then s
  else
    let s1 := s.setCore p k { c with ctrl := { c.ctrl with halt := true }, state := if c.state = 5 then 5 else 4,
                                     held := none, bar := .none, aborting := true }
    (s1.abortQueues p k).cancelAll p fun d => d.poster == BitVec.ofNat 10 k.val && d.op == c.ctx.map (·.op)

/-- Disarm every token (R223, R241). -/
def disarm (t : Table PhaseToken) : Table PhaseToken :=
  t.foldl (fun a e => Table.set {} a e.1 { e.2 with armed := false }) []

/-- The DETAIL of a STREAM_START's response (R38). -/
def Stream.detail (x : Stream) (result : Code) : Nat :=
  if result ≠ 0x0010 then 0
  else match x.jobs.findIdx? fun j => j.status == 0x0010 with
    | none => 0
    | some i =>
      let n := (x.jobs.getD i { stratum := 0, seed := 0 }).notClaimed
      let reason := if n.getLsbD 0 then 1 else if n.getLsbD 1 then 2 else 3
      reason + ((x.jobs.foldl (fun (a : BitVec 3) (j : Job) => a ||| j.notClaimed) 0).toNat) * 16 + i * 256

/-- A stream's result (R211): the first job's status, in stream order, that is not 0x0000. -/
def Stream.result (x : Stream) : Code :=
  match (x.jobs.map Job.status).find? (· != 0) with
  | some c => c
  | none => x.ending.getD 0

/-- The stream ends: state saved where R232 says so, tokens disarmed, the mailbox DONE (R211, R223, R232,
R241). -/
def State.finishStream (s : State) (p : PartNo) : State :=
  match (s.part p).stream with
  | none => s
  | some x0 =>
    let cur := s.current p
    let s1 := s.endJob p (x0.ending.getD 0)
    match (s1.part p).stream with
    | none => s1
    | some x =>
      let result := x.result
      let s2 := match cur with
        | none => s1
        | some t => if isSuccess result && x.ending.isNone then s1.saveStratum p t else s1
      let s3 := s2.updPart p fun q => { q with
        stream := none, state := if q.state = 3 then 2 else q.state,
        tokens := disarm q.tokens, windows := Vector.replicate 8 {},
        strmStatus := {},
        colMcast := q.colMcast.map fun m => { m with armed := false },
        kept := q.kept.filter fun b => !x.rankSeqs.contains (b.rank.toNat, b.seq) }
      x.aborters.foldl (fun s mb => s.completeCmd mb (if result = 0x0107 then 0 else 1) 0)
        ((if (s3.part p).hint.isSome then s3.putHint p none else s3).completeCmd x.mb result (x.detail result))

/-- Whether some core of a partition is still aborting. -/
def State.abortsRun (s : State) (p : PartNo) : Bool := (s.partCores p).any fun k => (s.core p k).aborting

/-- A stream whose early end has nothing left to wait for is over, once firmware serves (R193, R241). -/
def State.settleEnd (s : State) (p : PartNo) : State :=
  match (s.part p).stream with
  | none => s
  | some x => if x.ending.isSome && !s.abortsRun p && s.fwLive then s.finishStream p else s

/-- R328 for one lane: flush the inbound side, notice the successor, clear VALID. -/
def State.failLane (s : State) (p : PartNo) (code : Code) (l : Lane) : State :=
  let k : Fin 1024 := toFin 1024 l.core
  let s1 := s.flush p k (toFin 8 l.inQ) code
  let b := s1.qout p k (toFin 8 l.outQ)
  if b.valid then
    (s1.send (noticePkt s1 p b.dst code true)).setQout p k (toFin 8 l.outQ) { b with valid := false }
  else s1

/-- The running collectives of a failing stream fail first (R327, R328). -/
def State.failColls (s : State) (p : PartNo) (x : Stream) (code : Code) : State :=
  x.colls.foldl (fun s c =>
    (c.lanes.foldl (fun s l => s.failLane p code l) s).updPart p fun q => { q with
      colFail := { group := c.group, seq := c.seq, code := code } }) s

/-- A stream ends early with a code: nothing further starts, its contexts abort, its descriptors are
cancelled (R241, R242, R327). A stream that is ending already keeps its code; while firmware
does not serve, the failure waits (R243). -/
def State.failStream (s : State) (p : PartNo) (code : Code) : State :=
  match (s.part p).stream with
  | none => s
  | some x =>
    if x.ending.isSome then s
    else if !s.fwLive then s.updStream p fun y => { y with failDue := some (y.failDue.getD code) }
    else
      let s0 := if code = 0x0107 ∨ code = 0x0501 ∨ code = 0x0705 then s else s.escalate 1 p 0x3FF code
      let s1 := s0.failColls p x code
      let s2 := s1.updPart p fun q => { q with
        stream := q.stream.map fun y => { y with ending := some code, toLaunch := [], posting := [], rounds := [] },
        strmStatus := { q.strmStatus with state := 4 }, tokens := disarm q.tokens }
      let s3 := (s2.partCores p).foldl (fun s k => s.beginAbort p k) s2
      (s3.cancelAll p fun d => d.op.isSome).settleEnd p

/-- A signal of a phase token (R222). A signal that finds the token unarmed sets STRAY and fails the
stream. -/
def State.signalToken (s : State) (p : PartNo) (t : Nat) : State :=
  let x := s.token p t
  if !x.armed then
    (s.updPart p fun q => { q with strmPos := { q.strmPos with stray := true } }).failStream p 0x0103
  else if x.count = 0xFFFF then s.setToken p t { x with overflow := true }
  else s.setToken p t { x with count := x.count + 1 }

end Sys2Proof.Machine
end

