-- ==== Sys2Proof/Machine/Retry.lean ====
section
/-! DEFINITION. Held instructions: the instruction that waits on a core goes on when what it waits for
has come about (R78, R81, R84, R95, R153, R154, R223). -/

namespace Sys2Proof.Machine

/-- The body of an instruction that can wait, with its issue; none for one that never waits. -/
def waitingBody : Instr → Option (Issue × Body)
  | .mma i slot _ => some (i, mmaBody i slot)
  | .waitm i _ imm => some (i, waitmBody imm)
  | .waitt i _ imm => some (i, waittBody i.part imm)
  | .qpush i va q n fin _ => some (i, qpushBody i va q n fin)
  | .qpop i d q n _ => some (i, qpopBody i d q n)
  | .ld i d a imm => some (i, ldBody i d a imm)
  | .st i d a imm => some (i, stBody i d a imm)
  | .vld i d a imm => some (i, vldBody i d a imm)
  | .vst i d a imm => some (i, vstBody i d a imm)
  | .mdload i slot _ a imm => some (i, mdloadBody i slot a imm)
  | .put i a b count => some (i, putBody i a b count false)
  | .radd i a b count => some (i, putBody i a b count true)
  | .dmaq i ch _ a imm => some (i, dmaqBody i ch a imm)
  | .fence i _ imm => some (i, fenceBody i imm)
  | .bar i _ imm => some (i, barBody imm)
  | .endContext i _ => some (i, endBody i)
  | _ => none

/-- Whether a core goes on with the instruction it holds. -/
def Core.mayRetry (c : Core) : Bool :=
  c.held.isSome && !c.faulted && !c.ctrl.halt && !c.aborting && !c.lost

/-- Let a core go on with the instruction it holds. -/
def State.retryCore (s : State) (p : PartNo) (k : Fin 1024) : State :=
  let c := s.core p k
  if !c.mayRetry then s
  else match c.held with
    | none => s
    | some h => match waitingBody h with
      | none => s
      | some (_, b) =>
        let t := (s.runBody p k h b).barrierCheck p k
        match c.ctx, (t.core p k).ctx with
        | some x, none => t.barrierLeft p x.op
        | _, _ => t

/-- The cores that hold an instruction. -/
def State.heldCores (s : State) : List (PartNo × Fin 1024) :=
  s.cores.filterMap fun e =>
    if e.2.held.isSome then some (toFin 4 (e.1 / 1024), toFin 1024 (e.1 % 1024)) else none

/-- Let every core go on whose wait is over, then start the launches that waited for their cores. -/
def State.retry (s : State) : State :=
  let s1 := s.heldCores.foldl (fun s x => s.retryCore x.1 x.2) s
  (List.finRange 4).foldl State.launchReady s1

/-- Raise a fault of an instruction that issued earlier (R103, R104). -/
def State.raiseAt (s : State) (p : PartNo) (k : Fin 1024) (order : Word) (cause : Nat) (code : Code)
    (pc addr : Word) : State :=
  if (s.core p k).ctx.isNone then s else s.updCore p k fun c => c.raise order cause code pc addr

end Sys2Proof.Machine
end

