-- ==== Sys2Proof/Machine/CoreEvents.lean ====
section
/-! DEFINITION. Events of cores and clusters: completion of matrix operations, fault reports, HALT, the
issue level, the SRAM scrub, the end of a context abort. -/

namespace Sys2Proof.Machine

/-- The oldest matrix operation of a core, whose engines are enabled, writes back and completes; what it
held back goes on (R78, R84, R97). -/
def execMatrixOperationComplete (part : PartNo) (core : Fin 1024) (s : State) : Out :=
  let c := s.core part core
  match c.mms with
  | [] => .next s
  | op :: rest =>
    if c.aborting || c.lost || !s.partLive part || !s.coreEnabled part core then .next s
    else .next ((s.mmComplete part core op rest).retry)

/-- The code with which a faulted context ends its stream: the core's CODE, or that of a collective's
mismatch (R241, R320). -/
def Core.endCode (c : Core) : Code :=
  match c.ctx with
  | some x => if x.lane && c.fault.cause == 7 && c.faultAddr == 2 then 0x0402 else c.fault.code
  | none => c.fault.code

/-- A core whose earlier instructions have completed sets STATE to faulted and reports; firmware ends the
stream and aborts its contexts (R103, R241, R410). -/
def execCoreFaultReport (part : PartNo) (core : Fin 1024) (s : State) : Out :=
  let c := s.core part core
  if !c.faulted || c.state == 5 || c.aborting || !c.mms.isEmpty || !s.acksDone part core then .next s
  else .next (((s.setCore part core { c with state := 5 }).failStream part c.endCode).escalate 1 part (BitVec.ofNat 10 core.val) c.endCode)

/-- What STATE shows of a core that is not halted (R101). -/
def Core.running (c : Core) : BitVec 3 :=
  if c.ctx.isNone then 0
  else match c.bar, c.held with
    | .none, none => 1
    | .none, some h => match h with
      | .bar _ _ _ => 2
      | .waitm _ _ _ => 3
      | .waitt _ _ _ => 3
      | .qpush _ _ _ _ _ _ => 3
      | .qpop _ _ _ _ _ => 3
      | .dmaq _ _ _ _ _ => 3
      | _ => 1
    | _, _ => 2

/-- Write CORE_CTRL.HALT: 1 stops issue, 0 resumes it where STATE is halted; a faulted core is never
resumed (R101). -/
def State.writeHalt (s : State) (p : PartNo) (k : Fin 1024) (halt : Bool) : State :=
  s.updCore p k fun c =>
    if halt then { c with ctrl := { c.ctrl with halt := true }, state := if c.state = 5 then 5 else 4 }
    else { c with ctrl := { c.ctrl with halt := false }, state := if c.state = 4 then c.running else c.state }

/-- Firmware writes CORE_CTRL.HALT of a core; a core that goes on takes up what it held (R101). -/
def execCoreHalt (part : PartNo) (core : Fin 1024) (halt : Bool) (s : State) : Out :=
  if !s.fwLive || !s.partLive part || (s.core part core).aborting then .next s
  else
    let s1 := s.writeHalt part core halt
    if halt then .next s1 else .next ((s1.retry).passReleased part [core])

/-- The power controller's level for a cluster takes effect there (R98). -/
def execIssueLevelArrival (cluster : Fin 32) (s : State) : Out :=
  .next (s.updClu cluster fun u => { u with level := s.power.clu[cluster].level })

/-- A scrub of one line of scratchpad or cluster memory: it is read and corrected (R137 to R139). -/
def execSramScrub (part : PartNo) (cluMem : Bool) (unit : Nat) (line : Nat) (errs : LineErrs) (s : State) : Out :=
  let units := (s.part part).clusters.length * (if cluMem then 1 else 32)
  if !s.partLive part || decide (unit ≥ units) || decide (line ≥ (if cluMem then 2 ^ 18 else 2 ^ 15)) then .next s
  else .next (s.readLine part (s.spaceAt part (if cluMem then 2 else 1) unit (64 * line) / 64) errs)

/-- The number of the tile that holds D[i][j] (R88). -/
def MmDesc.tileOf (d : MmDesc) (i j : Nat) : Nat := (i / d.tile) * ceilDiv d.n d.tile + j / d.tile

/-- Whether an engine had finished a tile: each engine takes its tiles in ascending order (R88, R410). -/
def tileDone (tiles : List Nat) (t : Nat) : Bool := decide (t / 4 < tiles.getD (t % 4) 0)

/-- One row of D of which only the finished tiles are written (R410). -/
def State.partRow (s : State) (p : PartNo) (k : Fin 1024) (seed : Word) (d : MmDesc) (pr : Pairing)
    (tiles : List Nat) (old i : Nat) : Nat × List (Nat × ElemFlags) :=
  let fc := fmtOf d.cFmt
  let fd := fmtOf d.dFmt
  let rc := if d.cEn then s.rowNat p k d.regC i else 0
  let es := ((List.range d.n).filter fun j => tileDone tiles (d.tileOf i j)).map fun j =>
    let r := mmElem d pr (s.prods p k d pr.block i j) (bitsAt rc (elemBit fc j) fc.bits)
      (srBits seed d.tensorId (d.elemIndex i j))
    (j, r.1, (d.engine i j, r.2))
  (es.foldl (fun a e => a - bitsAt a (elemBit fd e.1) fd.bits * 2 ^ elemBit fd e.1 + e.2.1 * 2 ^ elemBit fd e.1) old,
   es.map (·.2.2))

/-- The write-back of the tiles that an aborted operation finished (R410). -/
def State.mmPartial (s : State) (p : PartNo) (k : Fin 1024) (op : MmOp) (tiles : List Nat) : State :=
  let c := s.core p k
  let d := MmDesc.ofBits op.desc
  match pairingOf d.aFmt d.bFmt with
  | none => s
  | some pr =>
    let poison := s.regionPoisoned p k d.regA || s.regionPoisoned p k d.regB
      || (d.cEn && s.regionPoisoned p k d.regC)
      || (pr.block != 0 && (s.regionPoisoned p k (d.regSa pr.block) || s.regionPoisoned p k (d.regSb pr.block)))
    ((List.range d.m).filter fun i => (List.range d.n).any fun j => tileDone tiles (d.tileOf i j)).foldl
      (fun t i =>
        let r := s.partRow p k c.seed d pr tiles (t.rowNat p k d.regD i) i
        (t.putRow p k d poison i r.1).updCore p k fun c => { c with arith := c.arith.raise r.2 }) s

/-- The core block after a context abort: every register but the fault registers is reset (R100, R410). CORE_ISSUE shows the
cluster's level, ramp and enables (R101), which an abort of one context leaves as they are (DESIGN CHOICE, log 88). -/
def Core.abortReset (c : Core) : Core :=
  { fault := c.fault, faultPc := c.faultPc, faultAddr := c.faultAddr, carry := c.carry, lost := c.lost,
    g := c.g, v := c.v, vp := c.vp, slots := c.slots }

/-- The core block after an engine reset: its reset state; what firmware keeps for the core stays (R411), and so
do the register files and descriptor slots, of which an engine reset zeroes no SRAM (R140). -/
def Core.engineReset (c : Core) : Core :=
  { carry := c.carry, lost := c.lost, g := c.g, v := c.v, vp := c.vp, slots := c.slots }

/-- An engine reset of a core whose abort has ended is over (R411). -/
def State.endEngineReset (s : State) (p : PartNo) (k : Fin 1024) : State :=
  match (s.part p).reset with
  | none => s
  | some r =>
    if r.level = 2 ∧ r.draining = true ∧ r.core.toNat = k.val then
      (s.updCore p k Core.engineReset).updPart p fun q => { q with reset := none }
    else s

/-- A context abort ends: the finished tiles of the oldest matrix operation are in D, the core block is
reset and the core reads idle; an engine reset ends with it, and the last one lets an ending stream end (R241, R410,
R411). -/
def execContextAbortEnd (part : PartNo) (core : Fin 1024) (tiles : List Nat) (s : State) : Out :=
  let c := s.core part core
  if !c.aborting || c.lost then .next s
  else
    let s1 := match c.mms with
      | [] => s
      | op :: _ => s.mmPartial part core op tiles
    let s2 := (s1.updCore part core Core.abortReset).endEngineReset part core
    let s3 := s2.updPart part fun x => { x with rcv := { x.rcv with aborts := satInc x.rcv.aborts } }
    .next ((s3.settleEnd part).launchReady part)

end Sys2Proof.Machine
end

