-- ==== Sys2Proof/Machine/MeshEvents.lean ====
section
/-! DEFINITION. Requests on the mesh as their targets perform them (R118 to R120, R93), and their
acknowledgements (R119, R151, R171, R294). -/

namespace Sys2Proof.Machine

/-- A WACK, RDATA or REFUSE descriptor's REPLY and ECHO (R277). -/
def replyDesc (reply : BitVec 32) (echo : Bool) : List (Nat × Nat × Nat × Nat) :=
  [(0, 0, 32, reply.toNat), (4, 0, 1, if echo then 1 else 0)]

/-- A packet in answer to a request (R277, R284). -/
def answerPkt (s : State) (p : PartNo) (dest : DeviceNo) (dpart : BitVec 2) (endpoint : BitVec 16) (type : BitVec 3)
    (desc : List (Nat × Nat × Nat × Nat)) (data : List (Line × Bool)) : Pkt :=
  { dest := dest, dpart := dpart, cls := 1, type := type, src := s.self, spart := BitVec.ofNat 2 p.val,
    endpoint := endpoint, desc := mkDesc desc, data := data }

/-- QACK for a packet of queue words (R151, R277). -/
def qackPkt (s : State) (pt : PartNo) (x : QPeer) (first n : Nat) : Pkt :=
  { dest := x.device, dpart := x.part, cls := 1, type := 5, src := s.self, spart := BitVec.ofNat 2 pt.val,
    endpoint := queueEndpoint x.core.toNat x.queue.toNat, desc := mkDesc [(0, 0, 20, first), (4, 0, 3, n)] }

/-- A host-mode word is stored in its slot: it is present, and a packet whose words are all present is acknowledged
(R151, R160). -/
def State.hostStored (s : State) (p : PartNo) (k : Fin 1024) (q : Fin 8) (slot : Nat) : State :=
  let x := s.qin p k q
  let y := { x with storing := x.storing.erase slot }
  let done (a : Nat × Nat) : Bool := (List.range a.2).all fun i => !y.storing.contains (wordSlot x.st.capacity.toNat a.1 i)
  (x.toAck.filter done).foldl (fun s a => s.send (qackPkt s p x.src a.1 a.2))
    (s.setQin p k q { y with toAck := x.toAck.filter fun a => !done a })

/-- The acknowledgement of a request, once no other request of its source carries the same (R119, R151, R171, R294). -/
def State.ackReq (s : State) (r : MeshReq) : State :=
  if r.ack != .none && s.mesh.any (fun x => x.ack == r.ack && x.src == r.src) then s
  else match r.ack with
    | .piece cl ch seq => s.setChan cl ch ((s.chan cl ch).drop seq false)
    | .packet dest dpart ep reply echo => s.send (answerPkt s r.part dest dpart ep 0 (replyDesc reply echo) [])
    | .hostWord slot => match r.src with
      | .queue p k q => s.hostStored p k q slot
      | _ => s
    | _ => s

/-- What follows a request that met an owner mismatch (R27, R174, R291): a packet is answered by one REFUSE, and its
other requests by nothing more. -/
def State.nakReq (s : State) (r : MeshReq) : State :=
  match r.ack with
  | .put pc addr order => match r.src with
    | .core p k => s.raiseAt p k order 4 0x0206 pc addr
    | _ => s
  | .piece cl ch seq =>
    let c := s.chan cl ch
    let addr := match c.out.find? fun x => x.seq == seq with
      | some x => x.addr
      | none => 0
    let live := c.out.any fun x => x.seq == seq
    let s1 := s.setChan cl ch (c.drop seq true)
    if live then s1.busError cl ch 0x0206 addr false else s1
  | .packet dest dpart ep reply echo =>
    ({ s with mesh := s.mesh.map fun (x : MeshReq) => if x.ack == r.ack && x.src == r.src then { x with ack := .none } else x }).send
      (answerPkt s r.part dest dpart ep 2 (replyDesc reply echo ++ [(8, 0, 16, 0x0206)]) [])
  | _ => s

/-- Perform a request that is on the mesh: it leaves the mesh, its effect `f` answers the state and
whether it met an owner mismatch, and its source is answered; what waited goes on. -/
def State.perform (s : State) (r : MeshReq) (f : State → State × Bool) : State :=
  if !s.mayPerform r then s
  else
    let x := f { s with mesh := s.mesh.erase r }
    ((if x.2 then x.1.nakReq r else x.1.ackReq r)).retry

/-- The read half of a partial write: the granule is decoded with its symbol errors (R118, R124). -/
def State.partialErrs (s : State) (r : MeshReq) (errs : SymErrs) : State :=
  if r.bytes.length = 256 ∧ r.addr % 256 = 0 ∧ r.radd = false then s
  else match s.placement.locate r.part.val (r.addr / 4096) with
    | none => s
    | some (st, pg) =>
      let s1 := s.sweepOne r.part st pg (decide (r.addr / 4096 < dumpPages))
      s1.decodeErrs r.part (some r.addr) (granuleKey st pg (r.addr / 256 % 16)) errs

/-- A memory controller performs a write to a granule (R118, R119, R123, R126, R132). -/
def execGranuleWrite (r : MeshReq) (errs : SymErrs) (s : State) : Out :=
  if r.space != 0 || r.radd then .next s
  else .next (s.perform r fun s => (s.partialErrs r errs).writeGranule r.part r.addr r.bytes r.poison id)

/-- A memory controller performs a RADD into stacked memory (R120). -/
def execStackRadd (r : MeshReq) (errs : SymErrs) (s : State) : Out :=
  if r.space != 0 || !r.radd then .next s
  else .next (s.perform r fun s => (s.partialErrs r errs).raddGranule r.part r.addr r.bytes r.poison)

/-- Perform a request at a scratchpad or cluster memory. A target that lies outside the partition of the request's tag
makes its network interface discard it and report (R27, R197). -/
def State.performLocal (s : State) (r : MeshReq) (f : State → State) : State :=
  s.perform r fun s =>
    if s.unitOk r then (f s, false)
    else
      let core := if r.space = 1 then r.unit else 32 * r.unit
      (s.eventChip 0x0206 0 (2 ^ 28 + core % 1024 + r.part.val * 1024), true)

/-- A scratchpad or cluster memory performs a RADD on one line: after an uncorrectable error on the read the add goes
into zeros, and the line stays poisoned (R120). -/
def execLocalRadd (r : MeshReq) (errs : LineErrs) (s : State) : Out :=
  if r.space == 0 || !r.radd then .next s
  else .next (s.performLocal r fun s =>
    let l := s.spaceAt r.part r.space r.unit r.addr / 64
    let s1 := s.readLine r.part l errs
    (if lineOutcome errs == .uncorrected then { s1 with sram := Mem.write s1.sram (64 * l) (zeros 64) } else s1).raddLine r)

/-- A write arrives over the mesh at a scratchpad or cluster memory and is performed (R93, R105). -/
def execInboundMeshAccess (r : MeshReq) (s : State) : Out :=
  if r.space == 0 || r.radd then .next s
  else .next (s.performLocal r fun s => s.landLocal r)

/-- What the reader of a granule does on an owner mismatch: the requesting context is aborted; for a channel it is a bus
error of its current unit, with the LOCAL operand of the address (R27, R174). -/
def State.readerMismatch (s : State) (src : MeshSrc) (addr : Nat) : State :=
  match src with
  | .core p k => s.raiseAt p k (s.core p k).progress 4 0x0206 (s.core p k).pc 0
  | .dma cl ch =>
    let c := s.chan cl ch
    let u := c.nextUnit
    (s.setChan cl ch { c with failUnit := some (min u (c.failUnit.getD u)) }).busError
      cl ch 0x0206 (BitVec.ofNat 64 (2 ^ 63 + addr % 2 ^ 40)) false
  | _ => s

/-- A memory controller reads a granule for a unit: decoding, correction, generation and owner tests
(R124, R125). -/
def execGranuleRead (src : MeshSrc) (part : PartNo) (addr : Addr40) (errs : SymErrs) (s : State) : Out :=
  match s.granuleAt part addr.toNat with
  | none => .next s
  | some key =>
    let s1 := s.decodeErrs part (some addr.toNat) key errs
    match s1.viewKey part key with
    | .mismatch => .next ((s1.noteMismatch key).readerMismatch src addr.toNat)
    | _ => .next s1

/-- The page copy of a retirement ends: later accesses map to the spare (R127). -/
def execPageCopyComplete (stack : Fin 12) (s : State) : Out :=
  match s.hbm.mcs[stack].copying with
  | [] => .next s
  | pg :: rest => .next (s.updMc stack fun m => { m with
      copying := rest, retired := insertNat pg m.retired,
      status := { m.status with remapBusy := !rest.isEmpty } })

/-- The oldest entry of a controller's correction history leaves it (R125). -/
def execHistoryExpiry (stack : Fin 12) (s : State) : Out :=
  .next (s.updMc stack fun m => { m with history := m.history.drop 1 })

/-- The scrubber writes one page of a partition's sweep; the last page ends the sweep (R132). -/
def execSweepPage (part : PartNo) (stack : Fin 12) (page : Nat) (s : State) : Out :=
  match s.placement.owner stack.val page with
  | none => .next s
  | some (q, u) => if q = part.val then .next (s.sweepOne part stack.val page (decide (u < dumpPages))) else .next s

/-- The patrol scrubber reads and corrects a granule of the data space, the pool included (R133). -/
def execPatrolRead (stack : Fin 12) (granule : Nat) (errs : SymErrs) (s : State) : Out :=
  if granule ≥ stackPages0 * 16 then .next s
  else
    let key := stack.val * 2 ^ 28 + granule
    let at_ := s.placement.owner stack.val (granule / 16)
    let s1 := s.decodeErrs ((at_.map fun x => toFin 4 x.1).getD 0)
      (at_.map fun x => x.2 * 4096 + granule % 16 * 256) key errs
    .next (s1.updMc stack fun m => { m with patrol :=
      { progress := BitVec.ofNat 7 (128 * granule / (stackPages0 * 16)),
        passes := if granule + 1 = stackPages0 * 16 then m.patrol.passes + 1 else m.patrol.passes } })

/-- Whether a reading of a stack's temperature doubles refresh; a stack whose refresh is doubled keeps it
until the reading falls below 83.0 °C (R141). -/
def hotAfter (hot : Bool) (reading : Reading) : Bool :=
  match reading with
  | none => true
  | some t => decide (t ≥ 340) || (hot && decide (t ≥ 332))

/-- A memory controller reads its stack's temperature, in units of 0.25 °C (R141). -/
def execMcTempRead (stack : Fin 12) (reading : Reading) (s : State) : Out :=
  let r := match reading with
    | some t => if t < 1024 then some t else none
    | none => none
  .next (s.updMc stack fun m =>
    let hot := hotAfter m.status.refresh2x r
    { m with status := { m.status with refresh2x := hot },
             temp := match r with
               | some t => { temp := BitVec.ofNat 10 t, valid := true, hot := hot }
               | none => { m.temp with valid := false, hot := false } })

end Sys2Proof.Machine
end

