-- ==== Sys2Proof/Machine/QueueEvents.lean ====
section
/-! DEFINITION. Packets delivered at the local interfaces: queue words and their control packets (R145,
R150, R151, R157), host queues (R160, R161), rate limiters (R302). -/

namespace Sys2Proof.Machine

/-- What R295 orders among packets: source unit, destination unit, class and epoch. -/
def orderKey (p : Pkt) : List Nat :=
  [p.src.toNat, p.spart.toNat, p.dpart.toNat, p.cls.toNat, if p.epoch then 1 else 0, p.endpoint.toNat,
   if p.cls = 0 then Pkt.field p 0x0C 0 16 else if p.cls = 2 then Pkt.field p 6 0 13 else 0]

/-- Whether a packet stands at a local interface and overtakes no packet that R295 orders before it. -/
def State.mayDeliver (s : State) (p : Pkt) : Bool :=
  if p.detour then s.fab.deliver.contains p
  else (s.fab.deliver.find? fun x => !x.detour && orderKey x == orderKey p) == some p

/-- Take a packet of a class and type that has reached a local interface. -/
def State.takeDelivered (s : State) (p : Pkt) (cls type : Nat) (f : State → State) : Out :=
  if p.cls.toNat = cls ∧ p.type.toNat = type ∧ s.mayDeliver p = true then
    .next (f { s with fab := { s.fab with deliver := s.fab.deliver.erase p } })
  else .next s

/-- The core and queue that ENDPOINT names (R276). -/
def pktQueue (p : Pkt) : Fin 1024 × Fin 8 :=
  (toFin 1024 (p.endpoint.toNat % 1024), toFin 8 (p.endpoint.toNat / 1024))

/-- Apply an echo to a limiter's list: the destination's limiter is allocated if need be, and its rate
falls by an eighth, at most once per DEC_GAP (R302). -/
def echoLimiters (ls : List Limiter) (dest : DeviceNo) (now : Word) (gap : Nat) : List Limiter :=
  let lower (l : Limiter) : Limiter :=
    let due := match l.lastDec with
      | none => true
      | some t => decide ((now - t).toNat ≥ gap)
    if due then { l with rate := max 1 (l.rate - ceilDiv l.rate 8), lastDec := some now, lastEcho := now }
    else { l with lastEcho := now }
  if ls.any fun l => l.dest == dest then ls.map fun l => if l.dest == dest then lower l else l
  else
    let new := lower { dest := dest, rate := 64 }
    if ls.length < 256 then ls ++ [new]
    else
      let r := (ls.map (·.rate)).foldl max 0
      let t := ((ls.filter fun l => l.rate == r).map (·.lastEcho)).foldl (fun a b => if b < a then b else a) (BitVec.allOnes 64)
      match ls.find? fun l => l.rate == r && l.lastEcho == t with
      | none => ls
      | some v => ls.erase v ++ [new]

/-- An echo from a destination reaches the package (R301, R302). -/
def State.echo (s : State) (dest : DeviceNo) : State :=
  let f := s.fab
  { s with fab := { f with
      echoes := satInc f.echoes,
      limiters := if f.congCfg.enable then
          echoLimiters f.limiters dest s.time (250 * max 1 f.congCfg.decGap.toNat)
        else f.limiters } }

/-- Whether a packet comes from the peer that a binding names. -/
def fromPeer (p : Pkt) (x : QPeer) : Bool := p.src == x.device && p.spart == x.part

/-- The producer that a packet of queue words names (R145, R277). -/
def wordsPeer (p : Pkt) : QPeer :=
  { device := p.src, part := p.spart, core := BitVec.ofNat 10 (Pkt.field p 6 0 10),
    queue := BitVec.ofNat 3 (Pkt.field p 6 10 3), bindGen := BitVec.ofNat 8 (Pkt.field p 4 0 8) }

/-- A packet of queue words is delivered to its inbound side; a partition that does not run discards it. A mark is echoed
to the producer that the side accepts words from (R277, R291, R301). -/
def execQword (p : Pkt) (s : State) : Out :=
  if s.wordHeld p then .next s
  else s.takeDelivered p 2 0 fun s =>
    let pt := pktPart p
    let k := pktQueue p
    if !s.partLive pt then s
    else
      let x := s.qin pt k.1 k.2
      let s1 := if p.mark && x.cfg.enable && !x.st.flushed && wordsPeer p == x.src then
          s.setQin pt k.1 k.2 { x with echo := true } else s
      { s1 with words := s1.words ++ [(p, List.range p.data.length)] }

/-- A word that its inbound side does not accept: counted, logged, and its sender's binding broken
(R145). -/
def State.discardWord (s : State) (pt : PartNo) (k : Fin 1024) (q : Fin 8) (p : Pkt) : State :=
  let x := s.qin pt k q
  let s1 := s.setQin pt k q { x with st := { x.st with discarded := satInc x.st.discarded } }
  let s2 := s1.eventPart pt 0x0123 (k.val + q.val * 1024 + (if x.cfg.enable then 0 else 8192))
  s2.send (noticePkt s2 pt (wordsPeer p) 0x0123 false)

/-- Word `i` of a packet, with its parity checked as it is stored (R147, R148, R149). -/
def pktWord (p : Pkt) (i : Nat) : QWord :=
  let tag := Pkt.field p (8 + 2 * i) 0 16
  let d := (p.data.getD i (0, false)).1
  let parity := BitVec.ofNat 8 (tag % 256)
  { data := d, parity := parity, fin := tag.testBit 8,
    poison := tag.testBit 9 || (p.data.getD i (0, false)).2 || parityOf d != parity }

/-- The scree writes of a host-mode word: DATA, its tag, and the zeros that end its page (R149, R160). -/
def screeReqs (pt : PartNo) (k : Fin 1024) (q : Fin 8) (base slot : Nat) (w : QWord) : List MeshReq :=
  let r : MeshReq := { src := .queue pt k q, part := pt, space := 0, addr := screeData base slot,
                       bytes := bytesOfNat 64 w.data.toNat, ack := .hostWord slot }
  [r, { r with addr := screeTag base slot, bytes := bytesOfNat 2 w.tag },
   { r with addr := screePad base slot, bytes := zeros 136 }]

/-- A word reaches its slot (R149, R151, R160). -/
def State.storeWord (s : State) (pt : PartNo) (k : Fin 1024) (q : Fin 8) (p : Pkt) (i : Nat) (last : Bool) : State :=
  let x := s.qin pt k q
  let first := Pkt.field p 0 0 20
  let slot := wordSlot x.st.capacity.toNat first i
  let w := pktWord p i
  let y := { x with words := Table.set none x.words slot (some w) }
  if x.cfg.host then
    let s1 := s.setQin pt k q { y with
      storing := insertNat slot x.storing, toAck := if last then x.toAck ++ [(first, p.data.length)] else x.toAck }
    { s1 with mesh := s1.mesh ++ screeReqs pt k q x.screeAt slot w }
  else
    let s1 := (s.setQin pt k q { y with arrivals := x.arrivals ++ [slot] }).settleScree pt k q
    if last then s1.send (qackPkt s1 pt x.src first p.data.length) else s1

/-- Whether a queue word overtakes none that R25 orders before it, and no write that R94 orders before it: `e` stands in
the list of those on the mesh. -/
def State.wordFirst (s : State) (e : Pkt × List Nat) (k : Nat) : Bool :=
  (s.words.find? fun x => s.wordFlow x.1 == s.wordFlow e.1) == some e && e.2.head? == some k && !s.wordHeld e.1

/-- A queue word reaches its inbound side: it is stored, or discarded under the binding check; a flushed
side discards it without counting (R145, R151, R157). -/
def execQueueWordArrival (p : Pkt) (k : Fin 4) (s : State) : Out :=
  match s.words.find? fun e => e.1 == p with
  | none => .next s
  | some e =>
    if !s.wordFirst e k.val then .next s
    else
      let left := e.2.erase k.val
      let s0 := if left.isEmpty then { s.wordGone p with words := s.words.erase e }
                else { s with words := s.words.map fun x => if x == e then (p, left) else x }
      let pt := pktPart p
      let c := pktQueue p
      let x := s0.qin pt c.1 c.2
      if !s0.partLive pt then .next s0
      else if x.cfg.enable && x.st.flushed then .next s0
      else if !x.cfg.enable || wordsPeer p != x.src then .next (s0.discardWord pt c.1 c.2 p)
      else .next ((s0.storeWord pt c.1 c.2 p k.val left.isEmpty).retry)

/-- A producer accepts the first grant after its binding was written (R150). -/
def execGrant (p : Pkt) (s : State) : Out :=
  s.takeDelivered p 1 3 fun s =>
    let pt := pktPart p
    let k := pktQueue p
    let b := s.qout pt k.1 k.2
    if !s.partLive pt || !b.valid || b.st.granted || !fromPeer p b.dst then s
    else
      let w := BitVec.ofNat 20 (Pkt.field p 0 0 20)
      (s.setQout pt k.1 k.2 { b with st := { b.st with
        capacity := w, credits := w, nextSlot := BitVec.ofNat 20 (Pkt.field p 4 0 20), granted := true } }).retry

/-- Returned credits reach the producer, with any echo (R150, R301, R302). -/
def execCredit (p : Pkt) (s : State) : Out :=
  s.takeDelivered p 1 4 fun s =>
    let pt := pktPart p
    let k := pktQueue p
    let b := s.qout pt k.1 k.2
    let s1 := if Pkt.field p 4 0 1 = 1 then s.echo p.src else s
    if !s.partLive pt || !b.valid || !b.st.granted || !fromPeer p b.dst then s1
    else
      (s1.setQout pt k.1 k.2 { b with st := { b.st with
        credits := BitVec.ofNat 20 (min b.st.capacity.toNat (b.st.credits.toNat + Pkt.field p 0 0 20)) } }).retry

/-- Queue words are acknowledged to the producer (R151). -/
def execQack (p : Pkt) (s : State) : Out :=
  s.takeDelivered p 1 5 fun s =>
    let pt := pktPart p
    let k := pktQueue p
    let b := s.qout pt k.1 k.2
    if !s.partLive pt || !b.valid || !fromPeer p b.dst then s
    else (s.setQout pt k.1 k.2 { b with unacked := b.unacked - Pkt.field p 4 0 3 }).retry

/-- An enabled inbound side answers a grant request that matches its binding (R150). -/
def execGrantReq (p : Pkt) (s : State) : Out :=
  s.takeDelivered p 3 2 fun s =>
    let pt := pktPart p
    let k := pktQueue p
    let x := s.qin pt k.1 k.2
    let peer : QPeer := { device := p.src, part := p.spart, core := BitVec.ofNat 10 (Pkt.field p 0 0 10),
                          queue := BitVec.ofNat 3 (Pkt.field p 0 10 3), bindGen := BitVec.ofNat 8 (Pkt.field p 2 0 8) }
    if s.partLive pt && x.cfg.enable && x.src == peer then s.send (grantPkt s pt x) else s

/-- A notice breaks the outbound binding, or flushes the inbound side, that ENDPOINT names (R156, R157,
R277). -/
def execNotice (p : Pkt) (s : State) : Out :=
  s.takeDelivered p 3 3 fun s =>
    let pt := pktPart p
    let k := pktQueue p
    let reason : Code := BitVec.ofNat 16 (Pkt.field p 0 0 16)
    if !s.partLive pt then s
    else if Pkt.field p 2 0 1 = 0 then (s.breakBinding pt k.1 k.2 reason).retry
    else (s.flush pt k.1 k.2 (if reason = 0 then 0x0120 else reason)).retry

/-! ## Host queues -/

/-- Firmware writes QIN_CTRL.FLUSH with a REASON; zero gives QUEUE_FLUSHED. A QPOP that waits meets the marker
(R154, R156). -/
def execQinFlush (part : PartNo) (core : Fin 1024) (q : Fin 8) (reason : Code) (s : State) : Out :=
  .next ((s.flush part core q (if reason = 0 then 0x0120 else reason)).retry)

/-- The inbound side that a host-queue slot serves (R164). -/
def HostQ.side (h : HostQ) : Fin 1024 × Fin 8 := (toFin 1024 h.cfg.core.toNat, toFin 8 h.cfg.queue.toNat)

/-- The words that wait between HQ_HEAD and HQ_TAIL (R161). -/
def HostQ.waiting (h : HostQ) (w : Nat) : Nat := if h.tail.full then w else wordDistance w h.head.toNat h.tail.tail.toNat

/-- The driver consumes `n` words: their slots become credits and the vector is armed (R150, R161). -/
def State.consumeHost (s : State) (pt : PartNo) (n : Fin 16) (count : Nat) : State :=
  let h := (s.part pt).hostQs[n]
  let k := h.side
  let x := s.qin pt k.1 k.2
  let w := x.st.capacity.toNat
  let head := wordSlot w h.head.toNat count
  let y := { x with
    words := (List.range count).foldl (fun t j => Table.erase t (wordSlot w h.head.toNat j)) x.words,
    unreturned := x.unreturned + count, st := { x.st with head := BitVec.ofNat 20 head } }
  let s1 := (s.setQin pt k.1 k.2 y).setHostQ pt n { h with
    head := BitVec.ofNat 20 head, tail := { h.tail with armed := true, full := h.tail.full && count == 0 } }
  s1.returnCredits pt k.1 k.2

/-- HQ_HEAD takes a value that the driver writes; one beyond the words present is counted (R161, R182). -/
def State.writeHqHead (s : State) (host : Bool) (part : PartNo) (slot : Fin 16) (value : BitVec 32) : State :=
  let h := (s.part part).hostQs[slot]
  let k := h.side
  let w := (s.qin part k.1 k.2).st.capacity.toNat
  let v := value.toNat % 2 ^ 20
  let d := wordDistance w h.head.toNat v
  if s.owner part != host || !s.partExists part || !h.cfg.active || decide (v ≥ w) || decide (d > h.waiting w) then
    s.violate host false true (partBlock part + 0x4000 + slot.val * 0x20 + 0x10)
  else if v = h.head.toNat then s.consumeHost part slot (if h.tail.full then w else 0)
  else s.consumeHost part slot d

/-- HQ_TAIL passes the next word, which is present; the end of a packet raises an armed vector (R160, R161). -/
def execHqTailAdvance (part : PartNo) (slot : Fin 16) (s : State) : Out :=
  let h := (s.part part).hostQs[slot]
  let t := h.tail.tail.toNat
  let k := h.side
  let x := s.qin part k.1 k.2
  let w := x.st.capacity.toNat
  match Table.get none x.present t with
  | none => .next s
  | some wd =>
    if !h.cfg.active || h.tail.full then .next s
    else
      let t1 := wordSlot w t 1
      let s1 := s.setHostQ part slot { h with
        tail := { h.tail with tail := BitVec.ofNat 20 t1, full := t1 == h.head.toNat, armed := h.tail.armed && !wd.fin } }
      .next (if h.tail.armed && wd.fin then s1.raiseVector (s.owner part) h.base.vector else s1)

end Sys2Proof.Machine
end

