-- ==== Sys2Proof/Machine/DmaEvents.lean ====
section
/-! DEFINITION. DMA engines at work (R168 to R177): the next request of a channel, completion, bus
errors, restart and cancel. -/

namespace Sys2Proof.Machine

/-- The number of units of a descriptor: elements, rows, or 4 KiB chunks of a linear transfer (R175). -/
def DmaDesc.units (d : DmaDesc) : Nat := if d.kind = 0 then ceilDiv d.size 4096 else d.count

/-- The bytes of a unit (R175). -/
def DmaDesc.unitLen (d : DmaDesc) (u : Nat) : Nat := if d.kind = 0 then min 4096 (d.size - 4096 * u) else d.size

/-- An offset added to one side's OFFSET for unit `u`; `o` is its index entry (R168, R169). -/
def DmaDesc.shift (d : DmaDesc) (dst : Bool) (u o : Nat) : Int :=
  match d.kind with
  | 0 => 4096 * u
  | 1 => u * (if dst then d.dstStride else d.srcStride)
  | _ => if d.indexSide = dst then o * d.size else u * d.size

/-- The address operand of a request of one side: the descriptor's with the sum's low bits in the place of its byte
address (R169, R174). -/
def operandAt (a : AddrOp) (w : Word) (sum : Int) : Word :=
  let width := if a.space = 0 then 40 else if a.space = 1 then 21 else 24
  BitVec.ofNat 64 (w.toNat / 2 ^ width * 2 ^ width + (sum % (2 ^ width : Nat)).toNat)

/-- Where a request of one side lies, or its bus error: code 0x0209 with the operand of DMA_ENG_ERR and
OFFSET_OVERFLOW (R169). -/
def State.reqAddr (s : State) (p : PartNo) (a : AddrOp) (w : Word) (sum : Int) (len : Nat) : Except (Word × Bool) Nat :=
  let err (ov : Bool) : Except (Word × Bool) Nat := .error (operandAt a w sum, ov)
  if a.space = 0 then
    if sum < 0 ∨ sum ≥ 2 ^ 40 then err true
    else if s.isLocal p a ∧ !s.extentOk p 0 0 sum.toNat len then err false
    else .ok sum.toNat
  else if sum < 0 ∨ sum + len > (2 : Int) ^ (if a.space = 1 then 21 else 24) then err false
  else if s.isLocal p a ∧ !s.extentOk p a.space a.unit sum.toNat len then err false
  else .ok sum.toNat

/-- An entry of the index table: its value, and whether it reads as poisoned (R168, R173). -/
def State.indexEntry (s : State) (p : PartNo) (d : DmaDesc) (u : Nat) : Nat × Bool :=
  let r := s.spaceRead p d.index.space d.index.unit (d.index.byte + 4 * u) 4
  (natOfBytes r.1, r.2)

/-- The packet operand of a place in another partition or package: device, partition, OFFSET (R110). -/
def AddrOp.remote (a : AddrOp) (at_ : Nat) : Nat := a.offset - a.byte + at_

/-- Bytes of a space of a partition, each with the poison of its granule or line (R110, R126, R137). -/
def State.spaceBytes (s : State) (p : PartNo) (space : BitVec 2) (unit off n : Nat) : List (Byte × Bool) :=
  ((pieces space off n).map fun x =>
    let r := s.spaceRead p space unit x.1 x.2
    r.1.map fun b => (b, r.2)).flatten

/-- Put bytes of a transfer to their destination: on the mesh, or in a WRITE packet with a reply slot
(R118, R171, R173, R294). -/
def State.dmaPut (s : State) (p : PartNo) (l : Nat) (cl : Fin 32) (ch : Fin 16) (piece : DmaPiece)
    (data : List (Byte × Bool)) : State :=
  let src (o n : Nat) : List Byte × Bool :=
    let r := (data.drop o).take n
    (r.map (·.1), r.any (·.2))
  let a := AddrOp.ofWord piece.dst
  if s.isLocal p a then
    { s with mesh := s.mesh ++ (pieces a.space piece.dstAddr piece.len).map fun x =>
        let r := src (x.1 - piece.dstAddr) x.2
        { src := .dma cl ch, part := p, space := a.space, unit := a.unit, addr := x.1,
          bytes := r.1, poison := r.2, ack := .piece cl ch piece.seq } }
  else
    let unit := BitVec.ofNat 16 (0x400 + l)
    let slot := (s.freeReply p unit 1).getD 0
    let gen := (s.replySlot p unit slot).gen
    (s.takeReply p unit slot 1 (.dmaWrite cl ch piece.seq)).send
      (reqPkt s p a.device a.part 0 a.space (a.remote piece.dstAddr) piece.len (replyField unit slot gen) []
        (dataCells piece.dstAddr piece.len fun lo n => src (lo - piece.dstAddr) n))

/-- Issue the writes of a channel whose bytes are there, in the order of its pieces: none passes one that still reads, and
a remote one takes a reply slot (R119, R168, R294). -/
def State.dmaFlush (s : State) (p : PartNo) (l : Nat) (cl : Fin 32) (ch : Fin 16) : Nat → State
  | 0 => s
  | n + 1 =>
    let c := s.chan cl ch
    match c.out.find? fun x => x.reading || x.data.isSome with
    | none => s
    | some x => match x.data with
      | none => s
      | some bs =>
        let a := AddrOp.ofWord x.dst
        if !s.isLocal p a && !s.replyFits p (BitVec.ofNat 16 (0x400 + l)) 1 1 then s
        else
          let y := { x with data := none }
          ((s.setChan cl ch { c with out := c.out.map fun z => if z.seq == x.seq then y else z }).dmaPut
            p l cl ch y bs).dmaFlush p l cl ch n

/-- Every channel of an engine issues the writes that it may. -/
def State.dmaFlushAll (s : State) (p : PartNo) (l : Nat) (cl : Fin 32) : State :=
  (List.finRange 16).foldl (fun s ch => s.dmaFlush p l cl ch (s.chan cl ch).out.length) s

/-- A channel after its next `len` bytes of unit `u` are issued. -/
def DmaChan.advance (c : DmaChan) (len unitLen : Nat) : DmaChan :=
  if c.nextByte + len ≥ unitLen then { c with nextUnit := c.nextUnit + 1, nextByte := 0, nextSeq := c.nextSeq + 1 }
  else { c with nextByte := c.nextByte + len, nextSeq := c.nextSeq + 1 }

/-- A read of a channel met an owner mismatch: logged at the controllers, and the request is a bus error (R27, R174). -/
def State.dmaClash (s : State) (p : PartNo) (cl : Fin 32) (ch : Fin 16) (a : AddrOp) (w : Word) (at_ len u : Nat) : State :=
  let c := s.chan cl ch
  ((s.meetOwners p at_ len).setChan cl ch { c with failUnit := some (min u (c.failUnit.getD u)) }).busError
    cl ch 0x0206 (operandAt a w at_) false

/-- The next request of a channel of a running engine. A read of stacked memory waits for the channel's earlier writes to
its granules (R118, R119, R168 to R170, R173). -/
def State.dmaIssue (s : State) (p : PartNo) (l : Nat) (cl : Fin 32) (ch : Fin 16) (x : DmaPost) : State :=
  let c := s.chan cl ch
  let d := DmaDesc.ofBits x.desc
  let u := c.nextUnit
  let b := c.nextByte
  let entry := if d.kind = 2 then s.indexEntry p d u else (0, false)
  let ul := d.unitLen u
  let ssum : Int := d.src.byte + d.shift false u entry.1 + b
  let dsum : Int := d.dst.byte + d.shift true u entry.1 + b
  let len := min (ul - b) (min (256 - (ssum % 256).toNat) (256 - (dsum % 256).toNat))
  let fail (e : Word × Bool) : State :=
    (s.setChan cl ch { c with failUnit := some (min u (c.failUnit.getD u)) }).busError cl ch 0x0209 e.1 e.2
  let src : MeshSrc := .dma cl ch
  let idx := d.index.byte + 4 * u
  if d.kind = 2 ∧ d.index.space = 0 ∧ s.readWaits src p idx 4 = true then s
  else if d.kind = 2 ∧ d.index.space = 0 ∧ s.ownerClash p idx 4 = true then s.dmaClash p cl ch d.index d.indexW idx 4 u
  else if entry.2 && d.indexSide then
    -- a scatter whose entry is poisoned writes nothing for the element (R173)
    s.setChan cl ch (DmaChan.note { c with nextUnit := u + 1, nextByte := 0, poisonSeen := true })
  else if entry.2 then
    -- a gather whose entry is poisoned writes zeros with the poison tag (R173)
    let len := min (ul - b) (256 - (dsum % 256).toNat)
    match s.reqAddr p d.dst d.dstW dsum len with
    | .error e => fail e
    | .ok da =>
      let pc : DmaPiece := { seq := c.nextSeq, unit := u, dst := d.dstW, dstAddr := da, len := len, reading := false,
                             addr := operandAt d.dst d.dstW da, data := some (List.replicate len (0, true)) }
      (s.setChan cl ch (DmaChan.note { c.advance len ul with out := c.out ++ [pc], poisonSeen := true })).dmaFlush
        p l cl ch (c.out.length + 1)
  else match s.reqAddr p d.src d.srcW ssum len, s.reqAddr p d.dst d.dstW dsum len with
    | .error e, _ => fail e
    | _, .error e => fail e
    | .ok sa, .ok da =>
      let pc : DmaPiece := { seq := c.nextSeq, unit := u, dst := d.dstW, dstAddr := da, len := len, reading := true,
                             addr := operandAt d.src d.srcW sa }
      let c1 := c.advance len ul
      if s.isLocal p d.src then
        if d.src.space = 0 ∧ s.readWaits src p sa len = true then s
        else if d.src.space = 0 ∧ s.ownerClash p sa len = true then s.dmaClash p cl ch d.src d.srcW sa len u
        else
          let bs := s.spaceBytes p d.src.space d.src.unit sa len
          let pc1 := { pc with reading := false, addr := operandAt d.dst d.dstW da, data := some bs }
          (s.setChan cl ch (DmaChan.note { c1 with out := c.out ++ [pc1], poisonSeen := c.poisonSeen || bs.any (·.2) })).dmaFlush
            p l cl ch (c.out.length + 1)
      else
        let unit := BitVec.ofNat 16 (0x400 + l)
        let slot := (s.freeReply p unit 1).getD 0
        let gen := (s.replySlot p unit slot).gen
        ((s.setChan cl ch (DmaChan.note { c1 with out := c.out ++ [pc] })).takeReply p unit slot 1 (.dmaRead cl ch pc.seq)).send
          (reqPkt s p d.src.device d.src.part 2 d.src.space (d.src.remote sa) len (replyField unit slot gen) [] [])

/-- Requests outstanding of an engine, those of cancelled descriptors among them (R170, R176). -/
def DmaEng.outstanding (e : DmaEng) : Nat := (e.chans.toList.map fun c => c.out.length + c.cancelled.length).foldl (· + ·) 0

/-- A DMA engine issues the next request of a channel (R168 to R170). -/
def execDmaRequestIssue (cluster : Fin 32) (ch : Fin 16) (s : State) : Out :=
  let e := s.dma[cluster]
  let c := s.chan cluster ch
  match s.clusterPart cluster, c.descs with
  | some (p, l), x :: _ =>
    if c.state != 1 || e.status.stopped || !s.partLive p || decide (c.nextUnit ≥ (DmaDesc.ofBits x.desc).units)
        || decide (e.outstanding ≥ 512) || !s.replyFits p (BitVec.ofNat 16 (0x400 + l)) 1 1 then .next s
    else .next (s.dmaIssue p l cluster ch x)
  | _, _ => .next s

/-- Mark the running job of a stream operation's descriptor as poisoned (R173). -/
def State.markPoisoned (s : State) (p : PartNo) : State :=
  s.updStream p fun y => y.updJob fun j => { j with poisoned := true }

/-- Firmware posts the descriptors of a DMA operation that still wait, while the channel has room (R165,
R218). -/
def State.postMore (s : State) (p : PartNo) (op : Nat) : Nat → State
  | 0 => s
  | n + 1 => match (s.part p).stream with
    | none => s
    | some x => match x.ops[op]?, x.posting.lookup op with
      | some w, some done =>
        let cl := s.cluster p (opField w 0x10 0 5)
        let ch : Fin 16 := toFin 16 (opField w 0x11 0 4)
        let a := opField w 0x18 0 40 + 64 * done
        if done ≥ opField w 0x12 0 12 || decide ((s.chan cl ch).descs.length ≥ 8) || !s.fwLive || x.ending.isSome then s
        else if s.ownerClash p a 64 then (s.meetOwners p a 64).failStream p 0x0206
        else if s.stackPoisoned p a 64 then s.failStream p 0x0201
        else
          let d : BitVec 512 := BitVec.ofNat 512 (s.stackNat p a 64)
          match s.dmaCheck p (DmaDesc.ofBits d) with
          | .operand => s.failStream p 0x0111
          | .address _ => s.failStream p 0x0207
          | .ok =>
            let s1 := s.setChan cl ch ((s.chan cl ch).post { desc := d, poster := 0x3FF, op := some op })
            (s1.updStream p fun y => { y with posting := y.posting.map fun z => if z.1 = op then (op, done + 1) else z }).postMore p op n
      | _, _ => s

/-- Every DMA operation of a partition's stream posts on. -/
def State.postAll (s : State) (p : PartNo) : State :=
  match (s.part p).stream with
  | none => s
  | some x => (x.posting.map (·.1)).foldl (fun s op => s.postMore p op 8) s

/-- A descriptor completes: COUNT, the token, the interrupt; then the next one begins (R171 to R173,
R222). -/
def execDmaDescriptorComplete (cluster : Fin 32) (ch : Fin 16) (s : State) : Out :=
  let c := s.chan cluster ch
  match s.clusterPart cluster, c.descs with
  | some (p, _), x :: t =>
    let d := DmaDesc.ofBits x.desc
    if c.state != 1 || s.dma[cluster].status.stopped || !s.partLive p || decide (c.nextUnit < d.units)
        || !c.out.isEmpty || c.failUnit.isSome then .next s
    else
      let n := c.count.count + 1
      let c1 := { c with descs := t, count := { c.count with count := n },
                         irqPending := c.irqPending || (n == c.count.irqAt && n != 0) }
      let s1 := s.setChan cluster ch c1.begin
      let s2 := if c.poisonSeen && x.op.isSome then s1.markPoisoned p else s1
      let s3 := if d.notify then s2.signalToken p d.token else s2
      .next ((s3.postAll p).retry)
  | _, _ => .next s

/-- A request of a transfer has had no response for 4 ms: a bus error; its reply slot is freed (R174,
R294). -/
def execDmaRequestTimeout (cluster : Fin 32) (ch : Fin 16) (piece : Nat) (s : State) : Out :=
  let c := s.chan cluster ch
  match c.out.find? fun x => x.seq == piece && x.data.isNone with
  | none => .next s
  | some x =>
    let s1 := s.setChan cluster ch (c.drop piece true)
    let s2 := { s1 with reply := s1.reply.map fun (e : Nat × ReplySlot) =>
      if e.2.use == some (ReplyUse.dmaWrite cluster ch piece) || e.2.use == some (ReplyUse.dmaRead cluster ch piece) then
        (e.1, { gen := e.2.gen + 1, use := none }) else e }
    let s3 := { s2 with reply := s2.reply.filter fun (e : Nat × ReplySlot) => e.2 != ({} : ReplySlot) }
    .next (s3.busError cluster ch 0x0210 x.addr false)

/-- Outstanding responses have settled: every channel's progress is fixed, the failed channel and those
with work are marked; firmware aborts the poster's context (R174, steps 3 and 4). -/
def execDmaEngineStopped (cluster : Fin 32) (s : State) : Out :=
  let e := s.dma[cluster]
  match s.clusterPart cluster with
  | none => .next s
  | some (p, _) =>
    if !e.status.stopped || e.settled || e.chans.toList.any (fun c => !c.out.isEmpty) || !s.partLive p then .next s
    else
      let mark (i : Nat) (c : DmaChan) : DmaChan :=
        let c1 := c.note
        if i = e.status.failedCh.toNat then { c1 with state := 3 }
        else if c.state = 1 then { c1 with state := 2 } else c1
      let s1 := s.updEng cluster fun e => { e with settled := true, chans := e.chans.mapFinIdx fun i c _ => mark i c }
      let fc : Fin 16 := toFin 16 e.status.failedCh.toNat
      match (e.chans[fc].descs).head? with
      | none => .next (s1.updEng cluster fun e =>
          let cs := e.chans.map fun (c : DmaChan) => if c.state = 3 then { c with state := 0 } else c
          DmaEng.settle { e with chans := cs })
      | some x =>
        let s2 := if x.op.isSome then s1.failStream p e.status.code else s1
        .next ((s2.updEng cluster fun e =>
          let cs := e.chans.set fc (e.chans[fc].cancel fun d => d.poster == x.poster && d.op == x.op)
          DmaEng.settle { e with chans := cs }).retry)

/-- Firmware writes RESUME: a stopped or failed channel goes on at unit DONE_UNITS (R174 to R176). -/
def State.resumeChan (s : State) (cl : Fin 32) (ch : Fin 16) : State :=
  let c := s.chan cl ch
  if !(c.state == 2 || c.state == 3) || !s.dma[cl].settled then s
  else
    let c1 := { c with state := if c.descs.isEmpty then 0 else 1, nextUnit := c.doneUnits, nextByte := 0, failUnit := none, out := [] }
    (s.setChan cl ch c1).updEng cl DmaEng.settle

/-- Firmware writes RESUME to a channel (R174, R175). -/
def execResume (cluster : Fin 32) (ch : Fin 16) (s : State) : Out :=
  if s.fwLive then .next (s.resumeChan cluster ch) else .next s

/-- Firmware writes CANCEL: the current descriptor and the queued ones of its poster and context are
removed (R176, R177). -/
def execCancel (cluster : Fin 32) (ch : Fin 16) (s : State) : Out :=
  let c := s.chan cluster ch
  match c.descs with
  | [] => .next s
  | x :: _ =>
    if !s.fwLive then .next s
    else .next (((s.setChan cluster ch (c.cancel fun d => d.poster == x.poster && d.op == x.op)).updEng cluster
      DmaEng.settle).retry)

/-- Firmware raises the vector that DMA_IRQ_BIND bound and clears IRQ_PENDING (R172, R196). -/
def execIrqPendingClear (cluster : Fin 32) (ch : Fin 16) (s : State) : Out :=
  let c := s.chan cluster ch
  match s.clusterPart cluster with
  | none => .next s
  | some (p, _) =>
    if !c.irqPending || !s.fwLive then .next s
    else
      let s1 := s.setChan cluster ch { c with irqPending := false }
      match c.irqVector with
      | none => .next s1
      | some v => .next (s1.raiseVector (s.owner p) v)

/-- The writes of cancelled descriptors have settled: the channel leaves cancelling; a launch that waited
for it may start (R176). -/
def execDmaCancelEnd (cluster : Fin 32) (ch : Fin 16) (s : State) : Out :=
  let c := s.chan cluster ch
  if c.state != 4 || !c.cancelled.isEmpty then .next s
  else
    let st : BitVec 3 := if c.descs.isEmpty then 0 else if s.dma[cluster].status.stopped then 2 else 1
    let s1 := s.setChan cluster ch (if c.progress.valid then { c with state := st } else { c.begin with state := st })
    match s.clusterPart cluster with
    | none => .next s1
    | some (p, _) => .next ((s1.postAll p).launchReady p)

end Sys2Proof.Machine
end

