-- ==== Sys2Proof/Machine/PacketEvents.lean ====
section
/-! DEFINITION. Requests of other packages and partitions at their destination, and the answers to this
package's own requests (R291, R294, R301, R302), rate limiters (R302), time probes (R307). -/

namespace Sys2Proof.Machine

/-! ## Requests at the destination -/

/-- LENGTH (R277). -/
def Pkt.len (p : Pkt) : Nat := Pkt.field p 8 0 10

/-- REPLY (R277). -/
def Pkt.reply (p : Pkt) : BitVec 32 := BitVec.ofNat 32 (Pkt.field p 12 0 32)

/-- The unit part of a REPLY: ENDPOINT of the answer (R276, R277). -/
def replyUnit (r : BitVec 32) : BitVec 16 := r.extractLsb' 0 16

/-- Bytes of a packet's data cells from a byte of the target space on: `first` is OFFSET (R277). -/
def Pkt.bytesAt (p : Pkt) (first lo n : Nat) : List Byte × Bool :=
  let l0 := first / 64
  ((List.range n).map fun i => byteOf (p.data.getD ((lo + i) / 64 - l0) (0, false)).1 ((lo + i) % 64),
   (linesOf lo n).any fun l => (p.data.getD (l - l0) (0, false)).2)

/-- The bytes of a packet's data cells from OFFSET `first` on, each with its cell's poison (R275, R277). -/
def Pkt.eachByte (p : Pkt) (first n : Nat) : List (Byte × Bool) :=
  (List.range n).map fun i =>
    let c := p.data.getD ((first + i) / 64 - first / 64) (0, false)
    (byteOf c.1 ((first + i) % 64), c.2)

/-- Whether a window admits a request (R112). -/
def MemWindow.admits (w : MemWindow) (space : BitVec 2) (off len : Nat) (write : Bool) : Bool :=
  w.space == space && (if write then w.write else w.read)
    && decide (w.base.toNat ≤ off / 4096) && decide ((off + len - 1) / 4096 ≤ w.limit.toNat)

/-- Answer a request with a REFUSE (R277, R291, R301). -/
def State.refusePkt (s : State) (pt : PartNo) (p : Pkt) (reply : BitVec 32) (code : Code) : State :=
  s.send (answerPkt s pt p.src p.spart (replyUnit reply) 2
    (replyDesc reply p.mark ++ [(8, 0, 16, code.toNat)]) [])

/-- DETAIL of WINDOW_DENIED and ADDRESS_RANGE (R197). -/
def deniedDetail (p : Pkt) (space : BitVec 2) (write : Bool) : Nat :=
  p.src.toNat + p.spart.toNat * 2 ^ 14 + space.toNat * 2 ^ 16 + (if write then 2 ^ 18 else 0)

/-- The tests of R291 but the owner's, in the table's order: the refusal's code, and whether it is logged
(R112). -/
def State.denied (s : State) (p : Pkt) (write : Bool) : Option (Code × Bool) :=
  let pt := pktPart p
  let a := Pkt.operand p
  if !s.partLive pt then some (0x0302, false)
  else if !(s.part pt).windows.toList.any fun w => w.admits a.space a.offset (Pkt.len p) write then some (0x0208, true)
  else if !a.formOk || !s.extentOk pt a.space a.unit a.byte (Pkt.len p) then some (0x0209, true)
  else none

/-- Serve or refuse a request at its destination (R112, R291). -/
def State.serve (s : State) (p : Pkt) (reply : BitVec 32) (write : Bool) (f : State → State) : State :=
  let pt := pktPart p
  match s.denied p write with
  | none => f s
  | some (code, log) =>
    let s1 := if log then s.eventPart pt code (deniedDetail p (Pkt.operand p).space write) else s
    s1.refusePkt pt p reply code

/-- A WRITE, RADD or a member's copy of an MWRITE goes to the mesh of its partition; without bytes it is
acknowledged at once (R118, R291, R294). -/
def State.deliverWrite (s : State) (p : Pkt) (reply : BitVec 32) (radd : Bool) : State :=
  s.serve p reply true fun s =>
    let pt := pktPart p
    let a := Pkt.operand p
    let ack := MeshAck.packet p.src p.spart (replyUnit reply) reply p.mark
    if Pkt.len p = 0 then s.send (answerPkt s pt p.src p.spart (replyUnit reply) 0 (replyDesc reply p.mark) [])
    else { s with mesh := s.mesh ++ (pieces a.space a.byte (Pkt.len p)).map fun x =>
      let r := Pkt.bytesAt p a.byte x.1 x.2
      { src := .fabric (s.ejectPort p), part := pt, space := a.space, unit := a.unit, addr := x.1, radd := radd,
        bytes := r.1, poison := r.2, ack := ack } }

/-- A WRITE packet at its destination (R291). -/
def execWrite (p : Pkt) (s : State) : Out :=
  s.takeDelivered p 0 0 fun s => s.deliverWrite p (Pkt.reply p) false

/-- A RADD packet at its destination (R291). -/
def execRaddRequest (p : Pkt) (s : State) : Out :=
  s.takeDelivered p 0 1 fun s => s.deliverWrite p (Pkt.reply p) true

/-- Whether a read of a range meets an owner mismatch (R27, R124). -/
def State.mismatchIn (s : State) (p : PartNo) (space : BitVec 2) (off len : Nat) : Option Nat :=
  if space ≠ 0 then none
  else (pieces 0 off len).findSome? fun x =>
    if s.view p x.1 == .mismatch then s.granuleAt p x.1 else none

/-- A READ packet at its destination: RDATA, or a refusal. It waits for earlier writes of its local interface to the same
granules (R119, R277, R291, R295, R301). -/
def execRead (p : Pkt) (s : State) : Out :=
  let at_ := Pkt.operand p
  if at_.space == 0 && (s.denied p false).isNone && s.readWaits (.fabric (s.ejectPort p)) (pktPart p) at_.byte (Pkt.len p) then .next s
  else s.takeDelivered p 0 2 fun s =>
    s.serve p (Pkt.reply p) false fun s =>
      let pt := pktPart p
      let a := Pkt.operand p
      let len := Pkt.len p
      match s.mismatchIn pt a.space a.byte len with
      | some key => (s.noteMismatch key).refusePkt pt p (Pkt.reply p) 0x0206
      | none => s.send (answerPkt s pt p.src p.spart (replyUnit (Pkt.reply p)) 1
          (replyDesc (Pkt.reply p) p.mark ++ [(8, 0, 40, a.offset), (14, 0, 10, len)])
          (dataCells a.byte len fun lo n => s.spaceRead pt a.space a.unit lo n))

/-! ## Answers -/

/-- The reply slot that an answer names, if its generation still holds it (R294): partition, unit, slot,
use. -/
def State.answered (s : State) (p : Pkt) : Option (PartNo × BitVec 16 × Nat × ReplyUse) :=
  let r := Pkt.field p 0 0 32
  let unit := BitVec.ofNat 16 (bitsAt r 0 16)
  let slot := bitsAt r 16 12
  let pt := pktPart p
  let x := s.replySlot pt unit slot
  if x.gen.toNat = bitsAt r 28 4 ∧ x.awaits = true then x.use.map fun u => (pt, unit, slot, u) else none

/-- A piece of a channel is refused or has no answer (R174); one of a cancelled descriptor is only over. -/
def State.failPiece (s : State) (cl : Fin 32) (ch : Fin 16) (seq : Nat) (code : Code) : State :=
  let c := s.chan cl ch
  let s1 := s.setChan cl ch (c.drop seq true)
  match c.out.find? fun x => x.seq == seq with
  | none => s1
  | some x => s1.busError cl ch code x.addr false

/-- A refusal or an expiry of a request (R174, R294): the core's remote fault, the engine's bus error, or the end of the
CP's operation. A slot that is only reserved fails nothing (log 92). -/
def State.failUse (s : State) (p : PartNo) (u : ReplyUse) (coreCode dmaCode : Code) : State :=
  match u with
  | .cp _ => s.failStream p coreCode
  | .reserved _ => s
  | .put k pc addr order => s.raiseAt p k order 10 coreCode pc addr
  | .dmaWrite cl ch seq => s.failPiece cl ch seq dmaCode
  | .dmaRead cl ch seq => s.failPiece cl ch seq dmaCode

/-- An answer frees its reply slot and does `f` for the request that held it; a late one is discarded. Any
echo acts (R294, R302). -/
def State.takeAnswer (s : State) (p : Pkt) (f : State → PartNo → BitVec 16 → ReplyUse → State) : State :=
  let s0 := if Pkt.field p 4 0 1 = 1 then s.echo p.src else s
  match s0.answered p with
  | none => s0
  | some (pt, unit, slot, u) => (f (s0.freeSlot pt unit slot) pt unit u).retry

/-- A WACK frees its reply slot; what waited for the acknowledgement goes on (R171, R294). -/
def execWack (p : Pkt) (s : State) : Out :=
  s.takeDelivered p 1 0 fun s => s.takeAnswer p fun s pt unit u =>
    match u with
    | .dmaWrite cl ch seq => (s.setChan cl ch ((s.chan cl ch).drop seq false)).dmaFlushAll pt (unit.toNat - 0x400) cl
    | _ => s

/-- RDATA lands in its reply slot: the channel writes the bytes to their destination, after those of the requests before
it; a stopped engine writes nothing more (R168, R173, R174, R294). -/
def execRdata (p : Pkt) (s : State) : Out :=
  s.takeDelivered p 1 1 fun s => s.takeAnswer p fun s pt unit u =>
    match u with
    | .dmaRead cl ch seq =>
      let c := s.chan cl ch
      let first := Pkt.field p 8 0 40
      match c.out.find? fun x => x.seq == seq with
      | none => s.setChan cl ch (c.drop seq false)
      | some x =>
        if s.dma[cl].status.stopped then s.setChan cl ch (c.drop seq true)
        else
          let bs := Pkt.eachByte p first x.len
          let y := { x with reading := false, addr := operandAt (AddrOp.ofWord x.dst) x.dst x.dstAddr, data := some bs }
          let c1 := { c with out := c.out.map fun z => if z.seq == seq then y else z, poisonSeen := c.poisonSeen || bs.any (·.2) }
          (s.setChan cl ch c1).dmaFlushAll pt (unit.toNat - 0x400) cl
    | _ => s

/-- A REFUSE frees its reply slot and fails the requester (R174, R294). -/
def execRefuse (p : Pkt) (s : State) : Out :=
  s.takeDelivered p 1 2 fun s => s.takeAnswer p fun s pt _ u =>
    s.failUse pt u (BitVec.ofNat 16 (Pkt.field p 8 0 16)) (BitVec.ofNat 16 (Pkt.field p 8 0 16))

/-- A reply slot expires 4 ms after its request was sent: it is freed, and the requester fails (R294). -/
def execReplySlotExpiry (part : PartNo) (unit : BitVec 16) (slot : BitVec 12) (s : State) : Out :=
  match (s.replySlot part unit slot.toNat).use with
  | none => .next s
  | some u => .next ((((s.freeSlot part unit slot.toNat).failUse part u 0x0306 0x0210)).retry)

/-! ## Rate limiters -/

/-- A limiter whose INC_PERIOD passed without an echo raises its rate by 1 (R302). -/
def execRateLimitIncrease (dest : DeviceNo) (s : State) : Out :=
  .next { s with fab := { s.fab with limiters := s.fab.limiters.map fun l =>
    if l.dest == dest then { l with rate := min 64 (l.rate + 1) } else l } }

/-- A limiter that has held full rate for 64 µs is freed (R302). -/
def execRateLimiterFree (dest : DeviceNo) (s : State) : Out :=
  .next { s with fab := { s.fab with limiters := s.fab.limiters.filter fun l => !(l.dest == dest && l.rate == 64) } }

/-! ## Time probes -/

/-- A PROBE packet (R277, R307). -/
def probePkt (s : State) (dest : DeviceNo) (t1 t2 t3 : Word) (echo : Bool) : Pkt :=
  { dest := dest, dpart := 0, cls := 3, type := 5, src := s.self, spart := 0,
    desc := mkDesc [(0, 0, 64, t1.toNat), (8, 0, 64, t2.toNat), (16, 0, 64, t3.toNat), (24, 0, 1, if echo then 1 else 0)] }

/-- Send a probe (R307). -/
def State.sendProbe (s : State) (device : DeviceNo) : State :=
  ({ s with fab := { s.fab with probeCtrl := { device := device, done := false, failed := false },
                                probeSent := some s.time } }).send (probePkt s device s.time 0 0 false)

/-- The fabric manager writes FAB_PROBE_CTRL.START (R307, R309). -/
def execProbeStart (device : DeviceNo) (s : State) : Out := .next (s.sendProbe device)

/-- Answer the management message that awaits a probe, with FAB_PROBE_RESULT (R437, R440). -/
def State.answerProbe (s : State) (code : Code) : State :=
  match s.mgmt.probe with
  | none => s
  | some m => ({ s with mgmt := { s.mgmt with probe := none } }).respond 0x24 m code [s.fab.probeResult.word]

/-- A PROBE is echoed by its target, or its echo is recorded: OFFSET and ROUND_TRIP (R307). The
difference is divided rounding down. -/
def execProbe (p : Pkt) (s : State) : Out :=
  s.takeDelivered p 3 5 fun s =>
    let t1 : Word := BitVec.ofNat 64 (Pkt.field p 0 0 64)
    let t2 : Word := BitVec.ofNat 64 (Pkt.field p 8 0 64)
    let t3 : Word := BitVec.ofNat 64 (Pkt.field p 16 0 64)
    if Pkt.field p 24 0 1 = 0 then s.send (probePkt s p.src t1 s.time s.time true)
    else if s.fab.probeSent != some t1 || p.src != s.fab.probeCtrl.device then s
    else
      let twice : Int := ((t2 - t1) - (s.time - t3)).toInt
      let s1 := { s with fab := { s.fab with
        probeCtrl := { s.fab.probeCtrl with done := true }, probeSent := none,
        probeResult := { offset := BitVec.ofInt 32 (twice / 2),
                         roundTrip := ((s.time - t1) - (t3 - t2)).setWidth 32 } } }
      s1.answerProbe 0

/-- No echo came within 1 ms of a probe (R307); the STATUS of a message's response is unstated then, so free (log 8). -/
def execProbeTimeout (s : State) : Out :=
  if s.fab.probeSent.isNone then .next s
  else
    let s1 := { s with fab := { s.fab with probeSent := none, probeCtrl := { s.fab.probeCtrl with failed := true } } }
    let code : Code := freeCode s.freeCtr
    .next (if s1.mgmt.probe.isSome then (s1.answerProbe code).bump else s1)

end Sys2Proof.Machine
end

