-- ==== Sys2Proof/Machine/Wire.lean ====
section
/-! DEFINITION. What stands on a link: the 80 bytes of a cell with its trailer (R260), link cells (R256, R261), the training
record (R255), and what a receiver reads of them. -/

namespace Sys2Proof

/-- The 72 bytes of an IDENT link cell before the trailer (R256). -/
def Ident.body (i : Ident) : BitVec 576 :=
  packFields [(0, 8, 3), (8, 2, i.kind.toNat), (16, 14, i.device.toNat), (32, 5, i.port.toNat), (40, 5, i.role.toNat),
    (48, 8, i.verMin.toNat), (56, 8, i.verMax.toNat), (64, 1, i.coordValid.toNat), (65, 1, i.handover.toNat),
    (66, 3, i.rxRetired.toNat), (80, 14, i.expect.toNat), (96, 5, i.expectRole.toNat), (128, 32, i.serialTag.toNat),
    (160, 14, i.farDevice.toNat), (176, 5, i.farRole.toNat)]

/-- The fields of an IDENT link cell; RSVD bits are not read (R9, R256). -/
def Ident.ofBody (b : BitVec 576) : Ident :=
  { kind := b.extractLsb' 8 2, device := b.extractLsb' 16 14, port := b.extractLsb' 32 5, role := b.extractLsb' 40 5,
    verMin := b.extractLsb' 48 8, verMax := b.extractLsb' 56 8, coordValid := b.getLsbD 64, handover := b.getLsbD 65,
    rxRetired := b.extractLsb' 66 3, expect := b.extractLsb' 80 14, expectRole := b.extractLsb' 96 5,
    serialTag := b.extractLsb' 128 32, farDevice := b.extractLsb' 160 14, farRole := b.extractLsb' 176 5 }

end Sys2Proof

namespace Sys2Proof.Machine

/-! ## Cells -/

/-- The 72 bytes of a link cell before the trailer: the opcode in byte 0, then the content (R261). -/
def LinkCell.body : LinkCell → BitVec 576
  | .idle => packFields [(0, 8, 1)]
  | .nak lseq => packFields [(0, 8, 2), (16, 12, lseq.toNat)]
  | .ident i => i.body
  | .laneSwap lane => packFields [(0, 8, 4), (8, 8, lane.val)]
  | .swapAck lane count => packFields [(0, 8, 5), (8, 8, lane.val), (32, 32, count.toNat)]
  | .down reason => packFields [(0, 8, 6), (8, 8, reason.toNat)]

/-- A link cell's opcode and content; none for a reserved opcode, and for a lane that no port has or a LANE_SWAP of another
direction than the sender's receive direction, which are discarded (R249, R261). -/
def LinkCell.ofBody (b : BitVec 576) : Option LinkCell :=
  let lane := bitsAt b.toNat 8 8
  match bitsAt b.toNat 0 8 with
  | 1 => some .idle
  | 2 => some (.nak (b.extractLsb' 16 12))
  | 3 => some (.ident (Ident.ofBody b))
  | 4 => if h : lane < 5 then (if bitsAt b.toNat 16 8 = 0 then some (.laneSwap ⟨lane, h⟩) else none) else none
  | 5 => if h : lane < 5 then some (.swapAck ⟨lane, h⟩ (b.extractLsb' 32 32)) else none
  | 6 => some (.down (b.extractLsb' 8 8))
  | _ => none

/-- The 72 bytes before the trailer of what a port sends: a link cell, or header and payload of a cell (R261, R276). -/
def Wire.body : Wire → BitVec 576
  | .link c => c.body
  | .cell _ c => c.payload ++ c.header

/-- The 80 bytes of a cell: the trailer with LSEQ, LINK and the cumulative ACK, then CRC-32 over bytes 0 to 75 (R260, R262). -/
def Wire.bits (w : Wire) (ack : Option (BitVec 12)) : BitVec 640 :=
  let t : BitVec 32 := packFields [
    (0, 12, match w with | .link _ => 0 | .cell lseq _ => lseq.toNat), (12, 1, match w with | .link _ => 1 | .cell _ _ => 0),
    (13, 1, ack.isSome.toNat), (16, 12, (ack.getD 0).toNat)]
  let low : BitVec 608 := t ++ w.body
  crc32 (bytesOfNat 76 low.toNat) ++ low

end Sys2Proof.Machine

namespace Sys2Proof

/-- The CRC of a received cell is that of its bytes 0 to 75 (R260). -/
def LinkRx.crcOk (rx : LinkRx) : Bool := crc32 (bytesOfNat 76 rx.bits.toNat) == rx.bits.extractLsb' 608 32

/-- LINK of a received cell (R260). -/
def LinkRx.isLink (rx : LinkRx) : Bool := rx.bits.getLsbD 588

/-- LSEQ of a received cell (R260). -/
def LinkRx.lseq (rx : LinkRx) : BitVec 12 := rx.bits.extractLsb' 576 12

/-- The cumulative ACK of a received cell, where it is meaningful (R260). -/
def LinkRx.ack (rx : LinkRx) : Option (BitVec 12) := if rx.bits.getLsbD 589 then some (rx.bits.extractLsb' 592 12) else none

/-- The link cell that is received; none for one that is discarded (R261). -/
def LinkRx.linkCell (rx : LinkRx) : Option Machine.LinkCell :=
  if rx.isLink then Machine.LinkCell.ofBody (rx.bits.extractLsb' 0 576) else none

/-- Header and payload of a received cell (R276). -/
def LinkRx.cell (rx : LinkRx) : Cell := { header := rx.bits.extractLsb' 0 64, payload := rx.bits.extractLsb' 64 512 }

end Sys2Proof

namespace Sys2Proof.Machine

/-! ## Forward error correction -/

/-- What the FEC makes of one block of four interleaved codewords, from the symbols received in error, numbered 0 to 2,175 in
the order of the port's symbol stream: codewords corrected, codewords uncorrectable, and corrected symbols of logical lanes 0 to
3 (R251). -/
def fecBlock (errs : List Nat) : Nat × Nat × List Nat :=
  let word (c : Nat) : List Nat := errs.filter fun s => s % 4 == c
  let good := (List.range 4).filter fun c => decide (1 ≤ (word c).length) && decide ((word c).length ≤ 15)
  let fixed := errs.filter fun s => good.contains (s % 4)
  (good.length, ((List.range 4).filter fun c => decide (15 < (word c).length)).length,
   (List.range 4).map fun l => (fixed.filter fun s => s / 4 % 4 == l).length)

/-- The physical receive lane of a logical lane: the spare, lane 4, takes a retired lane's place (R249, R263). -/
def Link.rxLane (x : Link) (l : Nat) : Nat := if x.status.rxRetired.toNat = l then 4 else l

/-- Codewords corrected and uncorrectable, and corrected symbols by physical lane, of the blocks that came with a cell (R251). -/
def Link.fecOf (x : Link) (blocks : List (List Nat)) : Nat × Nat × List Nat :=
  let rs := blocks.map fecBlock
  let sum (l : List Nat) : Nat := l.foldl (· + ·) 0
  (sum (rs.map (·.1)), sum (rs.map (·.2.1)),
   (List.range 5).map fun k => sum ((List.range 4).map fun l =>
     if x.rxLane l = k then sum (rs.map fun r => r.2.2.getD l 0) else 0))

/-! ## Training records -/

/-- The 128 bytes of a port's training record, sealed with its CHECK (R255). -/
def TrainRec.bits (r : TrainRec) (port : Nat) : BitVec 1024 :=
  let low : BitVec 992 := packFields [(0, 5, port), (8, 8, 1), (32, 32, r.peerTag.toNat), (64, 14, r.peerDevice.toNat),
    (80, 5, r.peerRole.toNat), (88, 2, r.peerKind.toNat), (128, 640, r.settings.toNat), (768, 3, r.txSpare.toNat),
    (772, 3, r.rxSpare.toNat)]
  crc32 (bytesOfNat 124 low.toNat) ++ low

/-- The fields of a stored record; none where CHECK or FORMAT is not valid (R255). -/
def TrainRec.ofBits (b : BitVec 1024) : Option TrainRec :=
  if crc32 (bytesOfNat 124 b.toNat) = b.extractLsb' 992 32 ∧ bitsAt b.toNat 8 8 = 1 then
    some { peerTag := b.extractLsb' 32 32, peerDevice := b.extractLsb' 64 14, peerRole := b.extractLsb' 80 5,
           peerKind := b.extractLsb' 88 2, settings := b.extractLsb' 128 640, txSpare := b.extractLsb' 768 3,
           rxSpare := b.extractLsb' 772 3 }
  else none

end Sys2Proof.Machine
end

