-- ==== Sys2Proof/Machine/LinkOps.lean ====
section
/-! DEFINITION. Cells and packets (R275 to R279), receive pools and hop credits (R279, R280), the route
lookup and the rings (R282, R287, R288), undeliverable packets (R293), link-level retry (R262) and port
failure (R265 to R269). -/

namespace Sys2Proof.Machine

/-! ## Ports -/

/-- A fabric port. -/
def State.link (s : State) (n : Fin 20) : Link := s.fab.links[n]

/-- Replace a port. -/
def State.setLink (s : State) (n : Fin 20) (x : Link) : State :=
  { s with fab := { s.fab with links := s.fab.links.set n x } }

/-- Change a port. -/
def State.updLink (s : State) (n : Fin 20) (f : Link → Link) : State := s.setLink n (f (s.link n))

/-- Note the latest DOWN_CODE of any port (R386). -/
def State.noteDown (s : State) (code : Code) : State := { s with fab := { s.fab with lastDown := code } }

/-- The twin of a role (R246). -/
def twinRole (r : Nat) : Nat := if r < 8 then (if r % 4 < 2 then r + 2 else r - 2) else if r % 2 = 0 then r + 1 else r - 1

/-- The port that serves a role (R246, R271). -/
def State.portOf (s : State) (role : Nat) : Fin 20 :=
  if (s.link 18).ctrl.standIn.toNat = role then 18
  else if (s.link 19).ctrl.standIn.toNat = role then 19
  else toFin 20 role

/-- The twin of a port (R246). -/
def State.twin (s : State) (n : Fin 20) : Fin 20 := s.portOf (twinRole (s.link n).status.role.toNat)

/-- Whether a port carries what the banks route to it (R270). -/
def Link.usable (x : Link) : Bool := x.status.state == 3 && x.released

/-- Put a cell on a port's lanes; every cell carries the cumulative ACK (R260, R262). -/
def State.emit (s : State) (n : Fin 20) (w : Wire) : State :=
  let s1 := { s with fab := { s.fab with wire := s.fab.wire ++ [(n, w.bits (s.link n).lastRx)] } }
  s1.updLink n fun x => { x with toAck := 0 }

/-! ## Cells -/

/-- A cell header (R276). -/
def cellHeader (p : Pkt) (head : Bool) (cells : Nat) (poison : Bool) : BitVec 64 :=
  packFields [(0, 14, p.dest.toNat), (14, 2, p.dpart.toNat), (16, 2, p.cls.toNat), (18, 1, p.epoch.toNat),
    (19, 1, p.mark.toNat), (20, 1, head.toNat), (21, 4, cells), (25, 3, p.type.toNat), (28, 1, p.close.toNat),
    (29, 1, p.detour.toNat), (30, 1, poison.toNat), (32, 14, p.src.toNat), (46, 2, p.spart.toNat),
    (48, 16, p.endpoint.toNat)]

/-- The cells of a packet: the head cell, then the data cells (R275). -/
def Pkt.cells (p : Pkt) : List Cell :=
  { header := cellHeader p true p.data.length false, payload := p.desc } ::
    (List.range p.data.length).map fun k =>
      let d := p.data.getD k (0, false)
      { header := cellHeader p false (k + 1) d.2, payload := d.1 }

/-- Whether a class and TYPE are listed with that number of data cells (R277). -/
def typeOk (cls type n : Nat) : Bool :=
  match cls with
  | 0 => if type = 2 then n == 0 else decide (type < 4) && decide (1 ≤ n)
  | 1 => if type = 1 then true else decide (type < 6) && n == 0
  | 2 => type == 0 && decide (1 ≤ n) && decide (n ≤ 4)
  | _ => decide (type < 6) && n == 0

/-- ENDPOINT of a packet that is to carry zero there is zero: REQ, HOP_CREDIT, HANDOVER and BARRIER (R276, R277). -/
def endpointOk (p : Pkt) : Bool :=
  p.endpoint == 0 || !(p.cls == 0 || (p.cls == 3 && (p.type == 0 || p.type == 1 || p.type == 4)))

/-- A packet from its cells; none where the header breaks R276 or the cells break R275. -/
def Pkt.ofCells (closure : Bool) (cs : List Cell) : Option Pkt :=
  match cs with
  | [] => none
  | h :: ds =>
    let w := h.header
    let p : Pkt := {
      dest := w.extractLsb' 0 14, dpart := w.extractLsb' 14 2, cls := w.extractLsb' 16 2, type := w.extractLsb' 25 3,
      epoch := w.getLsbD 18, mark := w.getLsbD 19, close := w.getLsbD 28, detour := w.getLsbD 29,
      src := w.extractLsb' 32 14, spart := w.extractLsb' 46 2, endpoint := w.extractLsb' 48 16, desc := h.payload,
      data := ds.map fun c => (c.payload, c.header.getLsbD 30) }
    if Pkt.cells p == cs && ds.length ≤ 8 && typeOk p.cls.toNat p.type.toNat ds.length
        && endpointOk p && (!p.close || closure) then some p else none

/-! ## Pools -/

/-- The key of a pool: port, pool (0 normal, 1 closure, 2 detour), class. -/
def poolKey (n : Fin 20) (pool cls : Nat) : Nat := (n.val * 3 + pool) * 4 + cls

/-- Whether a port has a closure pool (R279). -/
def hasClosure (n : Fin 20) : Bool := n == 2 || n == 3 || n == 6 || n == 7

/-- SIZE of a pool (R279). -/
def poolSize (n : Fin 20) (pool cls : Nat) : Nat :=
  match pool with
  | 0 => [16, 16, 24, 4].getD cls 0
  | 1 => if hasClosure n then [8, 8, 8, 2].getD cls 0 else 0
  | _ => [4, 4, 4, 2].getD cls 0

/-- The packets of a pool, oldest first, with the level at their arrival. -/
def State.pool (s : State) (key : Nat) : List (Pkt × Bool) := Table.get [] s.fab.pools key

/-- Replace a pool. -/
def State.setPool (s : State) (key : Nat) (x : List (Pkt × Bool)) : State :=
  { s with fab := { s.fab with pools := Table.set [] s.fab.pools key x } }

/-- The pool that a packet enters (R279). -/
def pktPool (p : Pkt) : Nat := if p.close then 1 else if p.detour then 2 else 0

/-- A packet is delivered to the switch at a port (R275, R279, R300); HOP_CREDIT stays at the port
(R280). -/
def State.receivePkt (s : State) (n : Fin 20) (p : Pkt) : State :=
  if p.cls = 3 ∧ p.type = 0 then s.updLink n fun x => { x with arrived := x.arrived ++ [p] }
  else
    let key := poolKey n (pktPool p) p.cls.toNat
    let q := s.pool key
    let level := decide (q.length * 8 ≥ max 1 s.fab.congCfg.markEighths.toNat * poolSize n (pktPool p) p.cls.toNat)
    s.setPool key (q ++ [(p, level)])

/-- Free a pool's slot: FREED advances (R280). -/
def State.freeSlotOf (s : State) (key idx : Nat) : State :=
  let s1 := s.setPool key ((s.pool key).eraseIdx idx)
  { s1 with fab := { s1.fab with freed := Table.set 0 s1.fab.freed key (Table.get 0 s1.fab.freed key + 1) } }

/-- Free slots of a pool at the far end of a port (R280); none while its first entry has not come. -/
def State.freeAt (s : State) (n : Fin 20) (pool cls : Nat) : Nat :=
  let c := Table.get {} s.fab.credits (poolKey n pool cls)
  if c.known then c.size.toNat - (c.sent - c.freed).toNat else 0

/-- The 12 entries of a HOP_CREDIT packet (R280). -/
def State.hopCreditPkt (s : State) (n : Fin 20) : Pkt :=
  { dest := (s.link n).peer.device, dpart := 0, cls := 3, type := 0, src := s.self, spart := 0,
    desc := mkDesc ((List.range 12).map fun i =>
      let size := poolSize n (i / 4) (i % 4)
      (4 * i, 0, 32, size + (if size = 0 then 0 else (Table.get 0 s.fab.freed (poolKey n (i / 4) (i % 4))).toNat * 256))) }

/-! ## Sending and retry -/

/-- Room in a port's retry buffer for a packet (R262). -/
def Link.room (x : Link) (cells : Nat) : Bool := decide (x.buffer.length + cells ≤ 1024)

/-- FP_RETRY follows the buffer (R273). -/
def Link.note (x : Link) : Link :=
  { x with retry := { x.retry with
      oldest := match x.buffer.head? with
        | some c => c.lseq
        | none => x.retry.nextLseq,
      occupancy := BitVec.ofNat 11 x.buffer.length } }

/-- Send the cells of a packet on a port: each takes the next LSEQ and stays in the retry buffer (R262). -/
def State.sendCells (s : State) (n : Fin 20) (p : Pkt) (cs : List Cell) : State :=
  (List.range cs.length).foldl (fun s i =>
    let x := s.link n
    let c := cs.getD i { header := 0, payload := 0 }
    let e : SentCell := { lseq := x.retry.nextLseq, cell := c, pkt := p, last := i + 1 == cs.length }
    let r := { x.retry with nextLseq := x.retry.nextLseq + 1 }
    (s.setLink n (Link.note { x with buffer := x.buffer ++ [e], retry := r })).emit n (.cell e.lseq c)) s

/-- Send a whole packet to a pool at a port's far end (R280). -/
def State.sendPkt (s : State) (n : Fin 20) (p : Pkt) : State :=
  let key := poolKey n (pktPool p) p.cls.toNat
  let c := Table.get {} s.fab.credits key
  let s1 := { s with fab := { s.fab with credits := Table.set {} s.fab.credits key { c with sent := c.sent + 1 } } }
  s1.sendCells n p (Pkt.cells p)

/-- A cumulative ACK: cells up to it leave the retry buffer (R262). -/
def Link.acked (x : Link) (ack : BitVec 12) : Link :=
  match x.buffer.findIdx? fun c => c.lseq == ack with
  | none => x
  | some i => Link.note { x with buffer := x.buffer.drop (i + 1), replaysNow := 0 }

/-- A replay: every unacknowledged cell goes again, oldest first (R262). -/
def State.replay (s : State) (n : Fin 20) : State :=
  let x := s.link n
  if x.buffer.isEmpty then s
  else
    let s1 := s.setLink n { x with replaysNow := x.replaysNow + 1,
                                   retry := { x.retry with replays := satInc x.retry.replays } }
    x.buffer.foldl (fun s c => s.emit n (.cell c.lseq c.cell)) s1

/-! ## Counting and undeliverable packets -/

/-- Count at FAB_EPOCH_CNT (R286). -/
def State.countEpoch (s : State) (p : Pkt) (inj : Bool) : State :=
  let i : Fin 8 := toFin 8 (4 * p.epoch.toNat + p.cls.toNat)
  let c := s.fab.counts[i]
  let d := if inj then { c with inj := c.inj + 1 } else { c with out := c.out + 1 }
  { s with fab := { s.fab with counts := s.fab.counts.set i d } }

/-- Refuse the members that an MWRITE's mask bits name (R304). -/
def State.refuseBits (s : State) (p : Pkt) (bits : List Nat) : State :=
  bits.foldl (fun s i =>
    let r := (Pkt.reply p) + BitVec.ofNat 32 (i * 2 ^ 16)
    s.send (answerPkt s (pktPart p) p.src p.spart (replyUnit r) 2 (replyDesc r false ++ [(8, 0, 16, 0x0301)]) [])) s

/-- A packet is undeliverable here: counted, then refused, noticed or dropped by its class (R293). -/
def State.undeliverable (s : State) (p : Pkt) : State :=
  let s1 := ({ s with fab := { s.fab with drop := { s.fab.drop with unreachable := satInc s.fab.drop.unreachable } } }).countEpoch
    p false
  match p.cls.toNat with
  | 0 =>
    if p.type = 3 then s1.refuseBits p (onesOf (BitVec.ofNat 8 (Pkt.field p 16 0 8)))
    else s1.send (answerPkt s1 (pktPart p) p.src p.spart (replyUnit (Pkt.reply p)) 2
      (replyDesc (Pkt.reply p) p.mark ++ [(8, 0, 16, 0x0301)]) [])
  | 2 =>
    let peer (device : DeviceNo) (part : BitVec 2) (core queue : Nat) : QPeer :=
      { device := device, part := part, core := BitVec.ofNat 10 core, queue := BitVec.ofNat 3 queue }
    let s2 := s1.send (noticePkt s1 (pktPart p) (peer p.src p.spart (Pkt.field p 6 0 10) (Pkt.field p 6 10 3)) 0x0403 false)
    s2.send (noticePkt s2 (pktPart p) (peer p.dest p.dpart (p.endpoint.toNat % 1024) (p.endpoint.toNat / 1024 % 8)) 0x0403 true)
  | _ => s1

/-! ## Routes and rings -/

/-- A direction's closure bit of a bank: 0 +x, 1 −x, 2 +y, 3 −y (R292). -/
def FabRing.closed (r : FabRing) (bank out : Bool) (dir : Nat) : Bool :=
  (if bank then (if out then r.outClosed1 else r.inClosed1) else if out then r.outClosed0 else r.inClosed0).getLsbD dir

/-- What a lookup gives (R282). -/
inductive Route where
  | here
  | unreachable
  | port (n : Fin 20) (close : Bool)
  deriving DecidableEq, Repr

/-- The entry of a route bank for a device (R282). -/
def State.route (s : State) (bank : Bool) (device : DeviceNo) : BitVec 5 :=
  Table.get 31 s.fab.routes (bank.toNat * 2 ^ 14 + device.toNat)

/-- The port and CLOSE that serve a role port in a bank (R282). -/
def State.mapRole (s : State) (bank : Bool) (role : Nat) : Fin 20 × Bool :=
  match role with
  | 0 => if s.fab.ring.closed bank true 0 then (2, true) else (0, false)
  | 1 => if s.fab.ring.closed bank true 1 then (3, true) else (1, false)
  | 4 => if s.fab.ring.closed bank true 2 then (6, true) else (4, false)
  | 5 => if s.fab.ring.closed bank true 3 then (7, true) else (5, false)
  | r => (if r < 8 then toFin 20 r else s.portOf r, false)

/-- Look a packet up in the bank of its epoch (R282). -/
def State.lookup (s : State) (p : Pkt) : Route :=
  if s.device = some p.dest then .here
  else
    let r := (s.route p.epoch p.dest).toNat
    if r ≥ 18 then .unreachable
    else
      let m := s.mapRole p.epoch r
      .port m.1 m.2

/-- The rings of a configuration: role and pool of the ring input, role and pool of the ring output
(R287). -/
def rings (r : FabRing) (bank : Bool) : List ((Nat × Nat) × (Nat × Nat)) :=
  let pick (closed : Bool) (a b : Nat) : Nat × Nat := if closed then (b, 1) else (a, 0)
  let out := fun d => r.closed bank true d
  let inn := fun d => r.closed bank false d
  [((3, 0), (2, 0)), ((2, 0), (3, 0)),
   (pick (inn 0) 1 3, pick (out 0) 0 2), (pick (inn 1) 0 2, pick (out 1) 1 3),
   ((7, 0), (6, 0)), ((6, 0), (7, 0)),
   (pick (inn 2) 5 7, pick (out 2) 4 6), (pick (inn 3) 4 6, pick (out 3) 5 7),
   ((10, 0), (8, 0)), ((11, 0), (9, 0)), ((8, 0), (10, 0)), ((9, 0), (11, 0)),
   ((14, 0), (12, 0)), ((15, 0), (13, 0)), ((12, 0), (14, 0)), ((13, 0), (15, 0))]

/-- Whether a move is transit under a bank's configuration; the detour pools copy every ring (R287,
R288). -/
def ringMove (r : FabRing) (bank : Bool) (from_ goal : Nat × Nat) : Bool :=
  if from_.2 = 2 ∨ goal.2 = 2 then
    from_.2 == 2 && goal.2 == 2 && (rings r bank).any fun x => x.1.1 == from_.1 && x.2.1 == goal.1
  else (rings r bank).contains (from_, goal)

/-- Whether a packet's move between pools is transit (R288). -/
def State.transit (s : State) (p : Pkt) (src dst : Fin 20 × Nat) : Bool :=
  let a := ((s.link src.1).status.role.toNat, src.2)
  let b := ((s.link dst.1).status.role.toNat, dst.2)
  if s.fab.epoch.settling then ringMove s.fab.ring false a b && ringMove s.fab.ring true a b
  else ringMove s.fab.ring p.epoch a b

/-- The bubble rule for a move into a pool at the far end of a port, with room in the port's retry buffer
(R262, R288). -/
def State.mayMove (s : State) (p : Pkt) (src : Option (Fin 20 × Nat)) (dst : Fin 20 × Nat) : Bool :=
  let need := match src with
    | some x => if s.transit p x dst then 1 else 2
    | none => 2
  decide (s.freeAt dst.1 dst.2 p.cls.toNat ≥ need) && (s.link dst.1).room (p.data.length + 1)
    && !(s.link dst.1).status.carrying

/-! ## Port failure -/

/-- Whether the twin of a port is available for a handover: UP at version 3, released by a flip (R270), free of any handover;
the failing port runs version 3 itself (R259) and its peer sent HANDOVER 1 (R267). -/
def State.twinAvailable (s : State) (n : Fin 20) : Bool :=
  let t := s.twin n
  let x := s.link n
  let y := s.link t
  t != n && x.status.version == 3 && y.usable && y.status.version == 3 && !y.status.carrying && !y.status.handover
    && y.hand == .none
    && (match x.ident with
      | some i => i.handover
      | none => false)

/-- The packets of cells that were not delivered: each by its last cell; HOP_CREDIT is not among them
(R268, R280). -/
def lostPkts (cs : List SentCell) : List Pkt :=
  (cs.filter fun c => c.last && !(c.pkt.cls == 3 && c.pkt.type == 0)).map (·.pkt)

/-- Discard cells: each packet among them is undeliverable (R268). -/
def State.discardCells (s : State) (cs : List SentCell) : State := (lostPkts cs).foldl State.undeliverable s

/-- A port's handover is over, or there is none: the flag is clear. -/
def Link.handDone (x : Link) : Link := { x with hand := .none, status := { x.status with handover := false } }

/-- A port's retry buffer is discarded (R268). -/
def State.dropBuffer (s : State) (n : Fin 20) : State :=
  (s.updLink n fun x => Link.note { x with buffer := [] }).discardCells (s.link n).buffer

/-- A handover whose twin fails: the cells that are not handed yet are discarded (R268, R269). -/
def State.dropHandover (s : State) (n twin : Fin 20) : State :=
  match (s.link n).hand with
  | .waiting t => if t = twin then (s.updLink n Link.handDone).dropBuffer n else s
  | .handing t cs => if t = twin then (s.updLink n Link.handDone).discardCells cs else s
  | .none => s

/-- The handover report that a package sends as the peer of a failed port (R266, R277). -/
def State.handoverPkt (s : State) (x : Link) : Pkt :=
  { dest := x.peer.device, dpart := 0, cls := 3, type := 1, src := s.self, spart := 0,
    desc := mkDesc [(0, 0, 5, match x.ident with
      | some i => i.port.toNat
      | none => 0), (2, 0, 12, (x.delivered.getD 0).toNat), (2, 15, 1, x.delivered.isSome.toNat)] }

/-- A port fails: DOWN is sent, the buffer frozen or discarded, the event logged, the report sent; a handover in which it is
the twin ends (R265 to R269). -/
def State.failPort (s : State) (n : Fin 20) (reason : BitVec 8) : State :=
  let x := s.link n
  let s1 := ((s.emit n (.link (.down reason))).eventChip 0x0303 0 n.val).noteDown 0x0303
  let s2 := if x.status.version = 3 ∧ x.peer.kind ≠ 1 ∧ x.peer.valid = true then s1.send (s1.handoverPkt x) else s1
  let avail := s2.twinAvailable n
  let s3 := s2.updLink n fun y => { y with
    status := { y.status with state := 4, version := 0, carrying := false, downCode := 0x0303, downs := satInc y.status.downs },
    accepted := false, released := false, partialRx := [], arrived := [], rxSwap := none, txSwap := none,
    nakSent := false, toAck := 0, replaysNow := 0, hand := if avail then .waiting (s2.twin n) else y.hand }
  let s4 := if avail then s3 else s3.dropBuffer n
  (List.finRange 20).foldl (fun s m => s.dropHandover m n) s4

/-- Send handed packets on the twin while it has room; a handed packet enters a ring, and its CLOSE is set
afresh (R267, R276, R288). -/
def State.pump (s : State) (n : Fin 20) : Nat → State
  | 0 => s
  | k + 1 => match (s.link n).hand with
    | .handing t (c :: cs) =>
      let rest := (c :: cs).dropWhile fun e => !e.last
      let grp := (c :: cs).take ((c :: cs).length - rest.length + 1)
      let p : Pkt := { c.pkt with close := false }
      let whole := grp.length == p.data.length + 1
      if c.pkt.cls = 3 ∧ c.pkt.type = 0 then (s.updLink n fun x => { x with hand := .handing t (rest.drop 1) }).pump n k
      else if s.freeAt t (pktPool p) p.cls.toNat < 2 ∨ !(s.link t).room grp.length ∨ !(s.link t).usable then s
      else
        let s1 := s.updLink n fun x => { x with hand := .handing t (rest.drop 1) }
        (if whole then s1.sendPkt t p else s1.sendCells t p ((Pkt.cells p).drop (p.data.length + 1 - grp.length))).pump n k
    | _ => s

/-- Send handed packets on every twin that may take them. -/
def State.pumpAll (s : State) : State := (List.finRange 20).foldl (fun s n => s.pump n 1024) s

end Sys2Proof.Machine
end

