-- ==== Sys2Proof/Machine/FabricEvents.lean ====
section
/-! DEFINITION. The fabric switch at work: moves of packets (R282 to R296), multicast (R303 to R305), hop
credits (R280), handover (R266, R267), histograms (R306). -/

namespace Sys2Proof.Machine

/-! ## Packets on the move -/

/-- Add one to a histogram count (R306). -/
def State.histAdd (s : State) (n : Fin 20) (cls bin : Nat) : State :=
  let k := (n.val * 4 + cls) * 9 + bin
  { s with fab := { s.fab with hist := Table.set 0 s.fab.hist k (satInc (Table.get 0 s.fab.hist k)) } }

/-- The packets at a place, with their marks due (R300). -/
def State.packetsAt (s : State) : PktPlace → List (Pkt × Bool)
  | .inject => s.fab.inject.map fun p => ({ p with epoch := s.fab.epoch.current }, false)
  | .pool n pool cls => s.pool (poolKey n pool.val cls.val)

/-- The port and pool of a place. -/
def PktPlace.source : PktPlace → Option (Fin 20 × Nat)
  | .inject => none
  | .pool n pool _ => some (n, pool.val)

/-- A packet leaves its place: its slot is freed, and a packet that enters the fabric is counted (R280,
R284, R286, R306). -/
def State.leave (s : State) (place : PktPlace) (idx : Nat) (p : Pkt) (newMark : Bool) : State :=
  match place with
  | .inject => ({ s with fab := { s.fab with inject := s.fab.inject.eraseIdx idx } }).countEpoch p true
  | .pool n pool cls =>
    let s1 := s.freeSlotOf (poolKey n pool.val cls.val) idx
    if newMark then s1.histAdd n cls.val 8 else s1

/-- Where a packet goes on: a port and the packet as it is sent there; or nowhere (R293, R296). -/
inductive Move where
  | local
  | lost
  | wait
  | go (n : Fin 20) (p : Pkt)
  deriving DecidableEq, Repr

/-- R282 and R296 for a packet. -/
def State.moveOf (s : State) (p : Pkt) : Move :=
  match s.lookup p with
  | .here => .local
  | .unreachable => .lost
  | .port n close =>
    let x := s.link n
    if x.usable then .go n { p with close := close && !p.detour }
    else if x.hand != .none then .wait
    else
      let t := s.twin n
      if (s.link t).usable && !p.detour && !(p.cls == 0 && p.type == 3) then .go t { p with close := false, detour := true }
      else .lost

/-! ## Multicast -/

/-- The ring output of an MWRITE: the port and CLOSE of +x or +y (R303, R304). -/
def State.mwOutput (s : State) (p : Pkt) : Fin 20 × Bool :=
  s.mapRole p.epoch (if Pkt.field p 16 8 1 = 0 then 0 else 4)

/-- The package's own coordinate on an MWRITE's axis (R5, R303). -/
def State.mwCoord (s : State) (p : Pkt) : Nat := bitsAt s.self.toNat (if Pkt.field p 16 8 1 = 0 then 0 else 3) 3

/-- An MWRITE with another mask. -/
def Pkt.withMask (p : Pkt) (mask : Nat) : Pkt :=
  { p with desc := BitVec.ofNat 512 (p.desc.toNat - Pkt.field p 16 0 8 * 2 ^ 128 + mask % 256 * 2 ^ 128) }

/-- A bit of a mask cleared. -/
def clearBit (mask i : Nat) : Nat := if mask.testBit i then mask - 2 ^ i else mask

/-- The copy that a member delivers: a WRITE answered at REPLY slot + i (R304). -/
def Pkt.copyFor (p : Pkt) (self : DeviceNo) (i : Nat) : Pkt :=
  let r := (Pkt.reply p) + BitVec.ofNat 32 (i * 2 ^ 16)
  { p with type := 0, dest := self, close := false,
           desc := BitVec.ofNat 512 (p.desc.toNat - (Pkt.reply p).toNat * 2 ^ 96 + r.toNat * 2 ^ 96) }

/-- The mask bits that an MWRITE carries on, past the member's own and one that a closure skips (R304). -/
def State.mwLeft (s : State) (p : Pkt) : Nat :=
  let mask := clearBit (Pkt.field p 16 0 8) (s.mwCoord p)
  if (s.mwOutput p).2 then clearBit mask ((s.mwCoord p + 1) % 8) else mask

/-- The later steps of R304 for an MWRITE whose own bit is clear: refuse what a closure skips, then forward,
end, or wait. `here` is where it stands, with its index. -/
def State.mwForward (s : State) (place : PktPlace) (idx : Nat) (p : Pkt) (newMark : Bool) : State :=
  let o := s.mwOutput p
  let skip := (s.mwCoord p + 1) % 8
  let mask := Pkt.field p 16 0 8
  let skipped := o.2 && mask.testBit skip
  let left := if skipped then clearBit mask skip else mask
  let q := Pkt.withMask p left
  if left = 0 then
    let s1 := (s.leave place idx p newMark).countEpoch p false
    if skipped then s1.refuseBits p [skip] else s1
  else if !(s.link o.1).usable then (s.leave place idx p newMark).undeliverable p
  else if s.mayMove { q with close := o.2 } (PktPlace.source place) (o.1, if o.2 then 1 else 0) then
    let s1 := (s.leave place idx p newMark).sendPkt o.1 { q with close := o.2 }
    if skipped then s1.refuseBits p [skip] else s1
  else s

/-! ## Order and shares -/

/-- The outputs that a packet leaves a pool for: none for the local interfaces, a port else; an MWRITE may leave for both
(R279, R282, R296, R304). -/
def State.outputsOf (s : State) (p : Pkt) : List (Option (Fin 20)) :=
  if p.cls = 0 ∧ p.type = 3 then
    (if (Pkt.field p 16 0 8).testBit (s.mwCoord p) then [none] else []) ++ [some (s.mwOutput p).1]
  else match s.lookup p with
    | .here => [none]
    | .unreachable => []
    | .port n _ => match s.moveOf p with
      | .go t _ => [some t]
      | _ => [some n]

/-- Whether the packet at an index may leave before those ahead of it: each pool keeps arrival order for
each output (R279), and injection keeps the order of R295. -/
def State.firstAt (s : State) (place : PktPlace) (idx : Nat) (p : Pkt) : Bool :=
  match place with
  | .inject => (s.fab.inject.take idx).all fun x => orderKey x != orderKey p || x.dest != p.dest
  | .pool n pool cls =>
    ((s.pool (poolKey n pool.val cls.val)).take idx).all fun x => (s.outputsOf x.1).all fun o => !(s.outputsOf p).contains o

/-- The port on which the packet at a place would be sent now, if its order, the bubble rule and the room allow it. -/
def State.readyFor (s : State) (place : PktPlace) (idx : Nat) (p : Pkt) : Option (Fin 20) :=
  if !s.firstAt place idx p then none
  else if p.cls = 0 ∧ p.type = 3 then
    let o := s.mwOutput p
    let q : Pkt := { p with close := o.2 }
    if s.mwLeft p ≠ 0 ∧ (s.link o.1).usable = true ∧ s.mayMove q (PktPlace.source place) (o.1, if o.2 then 1 else 0) = true
    then some o.1 else none
  else match s.moveOf p with
    | .go n q => if s.mayMove q (PktPlace.source place) (n, pktPool q) then some n else none
    | _ => none

/-- Every place at which a packet may stand. -/
def pktPlaces : List PktPlace :=
  .inject :: ((List.finRange 20).map fun n => ((List.finRange 3).map fun k =>
    (List.finRange 4).map fun c => PktPlace.pool n k c).flatten).flatten

/-- Whether a class has a packet ready for a port, with the hop credit it needs (R278). -/
def State.classReady (s : State) (n : Fin 20) (cls : Fin 4) : Bool :=
  pktPlaces.any fun w => (s.packetsAt w).zipIdx.any fun e => e.1.1.cls.toNat == cls.val && s.readyFor w e.2 e.1.1 == some n

/-- A class's weight; 0 acts as 1 (R278, R309). -/
def FabArb.weight (a : FabArb) (cls : Nat) : Nat := max 1 ([a.wReq.toNat, a.wRsp.toNat, a.wCol.toNat, a.wCtl.toNat].getD cls 1)

/-- How often a class has used up its weight on a port (R278). -/
def State.turns (s : State) (n : Fin 20) (cls : Fin 4) : Nat := (s.link n).share[cls] / s.fab.arb.weight cls.val

/-- The weighted choice at a packet boundary: a class may send while no other class that is ready has used up its weight less
often (R278; DESIGN CHOICE, log 80). -/
def State.mayShare (s : State) (n : Fin 20) (cls : Fin 4) : Bool :=
  (List.finRange 4).all fun d => decide (s.turns n cls ≤ s.turns n d) || !s.classReady n d

/-- Count the cells that a class sends; a class that had nothing waiting has yielded its share (R278). -/
def State.spendShare (s : State) (n : Fin 20) (cls : Fin 4) (cells : Nat) : State :=
  let k := s.turns n cls
  s.updLink n fun x => { x with share := Vector.ofFn fun d =>
    x.share[d] - s.fab.arb.weight d.val * k + (if d = cls then cells else 0) }

/-- An MWRITE goes on from its place when its class's share allows it (R278, R304). -/
def State.sendMwrite (s : State) (place : PktPlace) (idx : Nat) (p : Pkt) (newMark : Bool) : State :=
  let o := s.mwOutput p
  let sends := s.readyFor place idx p == some o.1
  if sends && !s.mayShare o.1 0 then s
  else (if sends then s.spendShare o.1 0 (p.data.length + 1) else s).mwForward place idx p newMark

/-- A member takes an MWRITE in its ring input: it delivers its copy, then forwards the rest (R304,
R305). -/
def execMwrite (port : Fin 20) (p : Pkt) (s : State) : Out :=
  let pool := pktPool p
  let place : PktPlace := .pool port (toFin 3 pool) 0
  let key := poolKey port pool 0
  match (s.pool key).findIdx? fun x => x.1 == p with
  | none => .next s
  | some idx =>
    if p.cls != 0 || p.type != 3 || !s.firstAt place idx p then .next s
    else
      let level := ((s.pool key).getD idx (p, false)).2
      let q := { p with mark := p.mark || level }
      let i := s.mwCoord p
      let mask := Pkt.field p 16 0 8
      if mask.testBit i then
        let s1 := { s with fab := { s.fab with deliver := s.fab.deliver ++ [Pkt.copyFor q s.self i] } }
        let s2 := s1.setPool key ((s1.pool key).set idx (Pkt.withMask p (clearBit mask i), level))
        .next (s2.sendMwrite place idx (Pkt.withMask q (clearBit mask i)) (level && !p.mark))
      else .next (s.sendMwrite place idx q (level && !p.mark))

/-- The switch looks up the packet at a place and moves it: to a local interface, or to a port and pool under
the bubble rule; an undeliverable packet ends here (R282 to R296, R300). -/
def execPacketForward (place : PktPlace) (idx : Nat) (s : State) : Out :=
  match (s.packetsAt place)[idx]? with
  | none => .next s
  | some (p0, level) =>
    if !s.firstAt place idx p0 then .next s
    else
      let p := { p0 with mark := p0.mark || level }
      let newMark := level && !p0.mark
      if p.cls = 0 ∧ p.type = 3 then
        if place = .inject then .next (s.sendMwrite place idx p newMark) else .next s
      else match s.moveOf p with
        | .wait => .next s
        | .lost => .next ((s.leave place idx p newMark).undeliverable p)
        | .local =>
          let s1 := (s.leave place idx p newMark).countEpoch p false
          .next { s1 with fab := { s1.fab with deliver := s1.fab.deliver ++ [p] } }
        | .go n q =>
          let cls : Fin 4 := toFin 4 p.cls.toNat
          if !s.mayMove q (PktPlace.source place) (n, pktPool q) || !s.mayShare n cls then .next s
          else
            let s1 := ((s.spendShare n cls (q.data.length + 1)).leave place idx p newMark).sendPkt n q
            if q.detour && !p.detour then
              .next { s1 with fab := { s1.fab with drop := { s1.fab.drop with detoured := satInc s1.fab.drop.detoured } } }
            else .next s1

/-! ## Hop credits -/

/-- A port takes the entries of a HOP_CREDIT packet (R280). -/
def execHopCredit (port : Fin 20) (p : Pkt) (s : State) : Out :=
  if !(s.link port).arrived.contains p then .next s
  else
    let s1 := s.updLink port fun x => { x with arrived := x.arrived.erase p }
    let s2 := (List.range 12).foldl (fun s i =>
      let e := Pkt.field p (4 * i) 0 32
      let key := poolKey port (i / 4) (i % 4)
      let c := Table.get {} s.fab.credits key
      let d := { c with known := true, size := BitVec.ofNat 8 e, freed := BitVec.ofNat 16 (e / 256) }
      { s with fab := { s.fab with credits := Table.set {} s.fab.credits key d } }) s1
    .next s2.pumpAll

/-- A port sends a HOP_CREDIT packet at its deadline (R280). A port that carries only link cells sends none
(R270). -/
def execHopCreditTimer (port : Fin 20) (s : State) : Out :=
  let x := s.link port
  if !x.usable || !x.room 1 then .next s
  else
    let p := s.hopCreditPkt port
    .next (s.sendCells port p (Pkt.cells p))

/-! ## Handover -/

/-- A handover report reaches the failed port that it names: cells up to LAST_LSEQ were delivered, the rest
go to the twin (R266, R267). -/
def execHandover (port : Fin 20) (p : Pkt) (s : State) : Out :=
  if Pkt.field p 0 0 5 ≠ port.val then .next s
  else s.takeDelivered p 3 1 fun s =>
    let x := s.link port
    match x.hand with
    | .waiting t =>
      let last := BitVec.ofNat 12 (Pkt.field p 2 0 12)
      let rest := if Pkt.field p 2 15 1 = 0 then x.buffer
        else match x.buffer.findIdx? fun c => c.lseq == last with
          | none => x.buffer
          | some i => x.buffer.drop (i + 1)
      let s1 := s.updLink port fun x => Link.note { x with
        buffer := [], hand := .handing t rest, status := { x.status with handover := true } }
      (s1.updLink t fun y => { y with status := { y.status with carrying := true } }).pump port 1024
    | _ => s

/-- The last handed cell has entered the twin's retry buffer: held packets follow the routes for a down
port (R267). -/
def execHandoverEnd (port : Fin 20) (s : State) : Out :=
  match (s.link port).hand with
  | .handing t [] =>
    .next ((s.updLink port Link.handDone).updLink t fun y => { y with status := { y.status with carrying := false } })
  | _ => .next s

/-- No handover report came within REPORT_WAIT: the retry buffer is discarded (R268). -/
def execReportWaitExpiry (port : Fin 20) (s : State) : Out :=
  match (s.link port).hand with
  | .waiting _ => .next ((s.updLink port Link.handDone).dropBuffer port)
  | _ => .next s

/-! ## Telemetry -/

/-- The bin of a pool with `o` of `n` slots occupied (R306). -/
def histBin (o n : Nat) : Nat := if o = 0 then 0 else min 7 (ceilDiv (8 * o) n)

/-- Every 64 NCLK cycles each receiving port samples each class's normal pool (R306). -/
def execHistSample (s : State) : Out :=
  .next ((List.finRange 20).foldl (fun s n => (List.range 4).foldl (fun s c =>
    s.histAdd n c (histBin (s.pool (poolKey n 0 c)).length (poolSize n 0 c))) s) s)

end Sys2Proof.Machine
end

