-- ==== Sys2Proof/Machine/LinkEvents.lean ====
section
/-! DEFINITION. Fabric ports at work: cells and retry (R260 to R262), identity (R256 to R259), training
(R253 to R255), lane sparing (R263), port failure (R265), stand-in (R271). -/

namespace Sys2Proof.Machine

/-! ## Reception -/

/-- Whether a port receives cells: its link cells run and it is not DOWN (R253, R265). -/
def Link.hears (x : Link) : Bool :=
  x.accepted && (x.status.state == 1 || x.status.state == 2 || x.status.state == 3 || x.status.state == 5)

/-- The corrections of one lane within the last millisecond (R263, R273). -/
def inLastMs (now : Word) (h : LaneHistory) : LaneHistory := h.filter fun e => decide ((now - e.1).toNat < 1000000)

/-- The symbols counted in a history. -/
def historySum (h : LaneHistory) : Nat := (h.map (·.2)).foldl (· + ·) 0

/-- Note what the FEC made of the blocks that came with a cell (R251, R273). -/
def Link.countFec (x : Link) (now : Word) (rx : LinkRx) : Link :=
  let r := x.fecOf rx.fec
  let hist := (List.range 5).map fun i =>
    let n := r.2.2.getD i 0
    inLastMs now ((x.history.getD i []) ++ (if n = 0 then [] else [(now, n)]))
  { x with
    err := { x.err with fecCorr := satAdd x.err.fecCorr r.1, fecUncorr := satAdd x.err.fecUncorr r.2.1 },
    history := hist,
    lanes := x.lanes.mapFinIdx fun i l _ =>
      let sum := historySum (hist.getD i [])
      { l with corrSymbols := satAdd l.corrSymbols (r.2.2.getD i 0),
               peakPerMs := if sum > l.peakPerMs.toNat then satOf 16 sum else l.peakPerMs } }

/-- What any received cell does to its port: FEC counts, and, with a correct CRC, the cumulative ACK
(R260, R262). -/
def State.linkRx (s : State) (n : Fin 20) (rx : LinkRx) : State :=
  let s1 := s.updLink n fun x => x.countFec s.time rx
  if !rx.crcOk then s1
  else match rx.ack with
    | none => s1
    | some a => (s1.updLink n fun x => x.acked a).pumpAll

/-- A link cell that a port hears: one that fails its CRC, and one with a reserved opcode, is discarded (R261, R262). -/
def State.hearLink (s : State) (n : Fin 20) (rx : LinkRx) (f : LinkCell → State → State) : Out :=
  if !(s.link n).hears then .next s
  else
    let s1 := s.linkRx n rx
    if !rx.crcOk then .next s1
    else match rx.linkCell with
      | none => .next s1
      | some c => .next (f c s1)

/-- An idle cell (R261). -/
def execIdle (port : Fin 20) (rx : LinkRx) (s : State) : Out := s.hearLink port rx fun _ s => s

/-- A NAK makes the sender replay: cells before the expected one have arrived (R261, R262). -/
def execNak (port : Fin 20) (rx : LinkRx) (s : State) : Out :=
  s.hearLink port rx fun c s => match c with
    | .nak lseq => (s.updLink port fun x => x.acked (lseq - 1)).replay port
    | _ => s

/-- ACK has not advanced for 2 µs while cells are unacknowledged: the sender replays (R262). -/
def execReplayTimeout (port : Fin 20) (s : State) : Out :=
  if (s.link port).status.state = 3 then .next (s.replay port) else .next s

/-- The receiver acknowledges at its 100 ns deadline (R262). -/
def execAckTimer (port : Fin 20) (s : State) : Out :=
  let x := s.link port
  if x.status.state = 3 ∧ x.toAck > 0 then .next (s.emit port (.link .idle)) else .next s

/-- Discard a non-link cell: one NAK for each run of discards (R262). -/
def State.discardCell (s : State) (n : Fin 20) : State :=
  let x := s.link n
  if x.nakSent then s
  else (s.setLink n { x with nakSent := true }).emit n (.link (.nak x.expectLseq))

/-- A packet is discarded for its header or its cells: counted in BAD_HEADER, and as ending here by the epoch and class of its
first cell; a HOP_CREDIT is not counted there (R276, R280, R286). -/
def State.badPacket (s : State) (cs : List Cell) : State :=
  let s1 := { s with fab := { s.fab with drop := { s.fab.drop with badHeader := satInc s.fab.drop.badHeader } } }
  match cs.head? with
  | none => s1
  | some h =>
    let cls := h.header.extractLsb' 16 2
    let type := h.header.extractLsb' 25 3
    if cls = 3 ∧ type = 0 then s1
    else s1.countEpoch { dest := 0, dpart := 0, cls := cls, type := type, epoch := h.header.getLsbD 18, src := 0, spart := 0, desc := 0 } false

/-- A non-link cell is received: accepted in order or discarded; a packet whose last cell is accepted is
delivered to the switch, or discarded for its header (R262, R275, R276). -/
def execCellReceive (port : Fin 20) (rx : LinkRx) (s : State) : Out :=
  if (s.link port).status.state ≠ 3 ∨ rx.isLink = true then .next s
  else
    let s1 := s.linkRx port rx
    let x := s1.link port
    if !rx.crcOk then
      .next ((s1.setLink port { x with err := { x.err with crcFail := satInc x.err.crcFail } }).discardCell port)
    else if rx.lseq ≠ x.expectLseq then .next (s1.discardCell port)
    else
      let cs := x.partialRx ++ [rx.cell]
      let n := match cs.head? with
        | some h => bitsAt h.header.toNat 21 4
        | none => 0
      let done := decide (cs.length ≥ n + 1) || !(match cs.head? with
        | some h => h.header.getLsbD 20
        | none => false)
      let y := { x with
        expectLseq := x.expectLseq + 1, lastRx := some rx.lseq, nakSent := false, toAck := x.toAck + 1,
        partialRx := if done then [] else cs, delivered := if done then some rx.lseq else x.delivered }
      let s2 := s1.setLink port y
      let s3 := if y.toAck ≥ 64 then s2.emit port (.link .idle) else s2
      if !done then .next s3
      else match Pkt.ofCells (hasClosure port) cs with
        | some p => .next (s3.receivePkt port p)
        | none => .next (s3.badPacket cs)

/-! ## Identity -/

/-- The kind of peer that a role has (R246): 0 package, 1 switch tray, 2 storage node. -/
def roleKind (role : Nat) : Nat := if role < 8 then 0 else if role < 16 then 1 else 2

/-- The IDENT that a port sends; HANDOVER 0 once the peer's version range puts the port at version 2 (R256, R257, R259). -/
def State.ownIdent (s : State) (n : Fin 20) : Ident :=
  let x := s.link n
  let v2 := match x.ident with
    | some i => decide (i.verMax.toNat < 3)
    | none => false
  { kind := 0, device := s.self, handover := !v2 && x.status.version != 2, port := BitVec.ofNat 5 n.val, role := x.status.role, verMin := 2, verMax := 3,
    coordValid := s.device.isSome, rxRetired := x.status.rxRetired,
    expect := if (s.expectAt n).valid then (s.expectAt n).device else 0,
    expectRole := if (s.expectAt n).valid then (s.expectAt n).role else 0, serialTag := s.fuses.serialTag }

/-- What the check of an IDENT decides (R257, R258). -/
inductive IdentResult where
  | held (code : Code)
  | wait
  | up (version : BitVec 2)
  deriving DecidableEq, Repr

/-- R257, then R258's table: the first row that matches. -/
def State.checkIdent (s : State) (n : Fin 20) (i : Ident) : IdentResult :=
  let x := s.link n
  let role := x.status.role.toNat
  let kind := roleKind role
  if s.device.isNone || !i.coordValid then .wait
  else if i.verMin.toNat > 3 ∨ i.verMax.toNat < 2 then .held 0x0304
  else if i.kind.toNat ≠ kind then .held 0x0305
  else
    let v : BitVec 2 := BitVec.ofNat 2 (min 3 i.verMax.toNat)
    match kind with
    | 0 => if i.device != (s.expectAt n).device || i.role != (s.expectAt n).role || i.expect != s.self || i.expectRole != x.status.role
        then .held 0x0305 else .up v
    | 1 => if !(s.expectAt n).valid || i.farDevice = 0x3FFF then .wait
        else if i.farDevice != (s.expectAt n).device || i.farRole != (s.expectAt n).role then .held 0x0305 else .up v
    | _ => if i.expect != s.self then .held 0x0305 else .up v

/-- FP_PEER as an IDENT fills it (R273). -/
def peerOf (i : Ident) : FpPeer :=
  { device := if i.kind = 1 then i.farDevice else i.device, role := if i.kind = 1 then i.farRole else i.role,
    kind := i.kind, valid := true, serialTag := i.serialTag }

/-- The spare physical lane of a direction, 7 for none (R255). -/
def spareOf (spare : Bool) : BitVec 3 := if spare then 4 else 7

/-- The training record of a port as it stands (R255). -/
def Link.recordNow (x : Link) : TrainRec :=
  { peerTag := x.peer.serialTag, peerDevice := x.peer.device, peerRole := x.peer.role, peerKind := x.peer.kind,
    settings := x.settings, txSpare := spareOf x.status.txSpare, rxSpare := spareOf x.status.rxSpare }

/-- Firmware writes a port's training record (R255, R263). -/
def Link.saveRecord (x : Link) (n : Nat) : Link :=
  { x with record := x.recordNow.bits n, keptRx := x.status.rxRetired, keptTx := x.status.txRetired, writeRec := false }

/-- Whether a record names the peer that answers (R255). -/
def TrainRec.samePeer (r : TrainRec) (p : FpPeer) : Bool :=
  r.peerTag == p.serialTag && r.peerDevice == p.device && r.peerRole == p.role && r.peerKind == p.kind

/-- Lane uses of one direction: the retired lane, the spare, the others active (R249, R254). -/
def laneUse (retired : BitVec 3) (spare : Bool) (i : Nat) : BitVec 2 :=
  if retired.toNat = i then 2 else if spare && i == 4 then 1 else 0

/-- A port goes UP: no flip has released it, and FREED and the peer's hop credits start afresh (R270, R280). -/
def State.goUp (s : State) (n : Fin 20) (version : BitVec 2) : State :=
  let keys := (List.range 12).map fun i => poolKey n (i / 4) (i % 4)
  let s1 := s.updLink n fun x => { x with
    released := x.released && x.status.state == 3, status := { x.status with state := 3, version := version } }
  if (s.link n).status.state = 3 then s1
  else { s1 with fab := { s1.fab with
    freed := keys.foldl (fun t k => Table.erase t k) s1.fab.freed,
    credits := keys.foldl (fun t k => Table.erase t k) s1.fab.credits } }

/-- Put the result of an identity check into effect: the peer's receive result on the transmit lanes, the training record, the
port's state (R254, R255, R258, R259). -/
def State.applyIdent (s : State) (n : Fin 20) (i : Ident) : State :=
  let s1 := s.updLink n fun x =>
    let t := if i.rxRetired = 7 then x.status.txRetired else i.rxRetired
    let y := { x with
      ident := some i, peer := peerOf i,
      status := { x.status with txRetired := t, txSpare := t == 7 },
      lanes := x.lanes.mapFinIdx fun k l _ => { l with txUse := laneUse t (t == 7) k } }
    match TrainRec.ofBits y.record with
    | some r => if r.samePeer y.peer && !y.writeRec then y else y.saveRecord n.val
    | none => y.saveRecord n.val
  match s1.checkIdent n i with
  | .held code => ((s1.updLink n fun x => { x with status := { x.status with state := 5, downCode := code } }).eventChip code 0 n.val).noteDown code
  | .wait => s1.updLink n fun x => { x with status := { x.status with state := 2 } }
  | .up v => s1.goUp n v

/-- An IDENT is received: a new one is checked, once the CP runs (R253); one that changes on a port that is UP fails the port
(R257, R258, R264, R265). -/
def execIdent (port : Fin 20) (rx : LinkRx) (s : State) : Out :=
  s.hearLink port rx fun c s => match c with
    | .ident id =>
      let x := s.link port
      if x.ident == some id then s
      else if x.status.state = 3 then s.failPort port 0
      else if !s.fwLive then s
      else s.applyIdent port id
    | _ => s

/-- A port sends its IDENT until it is UP, and while HELD (R256). -/
def execIdentSend (port : Fin 20) (s : State) : Out :=
  let x := s.link port
  if x.hears && x.status.state != 3 then .next (s.emit port (.link (.ident (s.ownIdent port)))) else .next s

/-- Check again the ports that wait for coordinates or an expected peer (R247, R257). -/
def State.recheckPorts (s : State) : State :=
  (List.finRange 20).foldl (fun s n =>
    let x := s.link n
    match x.ident with
    | some i => if x.accepted && x.status.state == 2 then s.applyIdent n i else s
    | none => s) s

/-! ## Training -/

/-- Start training a port: from its record, where that is valid and no full training was asked for, or in full (R253, R255). A
port that is UP fails first. Lanes that a record's start finds retired stay retired (R263). Without
the rack reference, for which the fabric domain has no substitute, the port stays DOWN (R370). -/
def State.trainPort (s : State) (n : Fin 20) : State :=
  let s0 := if (s.link n).status.state = 3 then s.failPort n 0 else s
  if !s.clocks.clk.refRack then s0.updLink n fun x => { x with status := { x.status with state := 4 } }
  else s0.updLink n fun x =>
    let y := { x with fullTrain := false, accepted := false, released := false, ident := none }
    match (if x.fullTrain then none else TrainRec.ofBits x.record) with
    | some r =>
      let st := { x.status with
        state := 1, version := 0, savedStart := true, rxRetired := if r.rxSpare = 7 then x.keptRx else 7,
        txRetired := if r.txSpare = 7 then x.keptTx else 7, rxSpare := false, txSpare := false }
      { y with status := st, settings := r.settings, writeRec := false }
    | none =>
      let st := { x.status with
        state := 1, version := 0, savedStart := false, rxRetired := 7, txRetired := 7, rxSpare := false, txSpare := false }
      { y with status := st, writeRec := true }

/-- Firmware starts training an enabled port that is not in use (R253). -/
def execPortTrain (port : Fin 20) (s : State) : Out :=
  let x := s.link port
  if s.fwLive && x.ctrl.enable && (x.status.state == 0 || x.status.state == 4) then .next (s.trainPort port) else .next s

/-- A DOWN port that is enabled is trained again within a second (R253). -/
def execPortRetrainTimer (port : Fin 20) (s : State) : Out :=
  let x := s.link port
  if s.fwLive && x.ctrl.enable && x.status.state == 4 then .next (s.trainPort port) else .next s

/-- The receive lanes that fail the acceptance test: more than one symbol in 100,000 in error (R254). -/
def failingLanes (measured : Nat) (errs : List Nat) : BitVec 5 :=
  (List.range 5).foldl (fun b i => setBit b i (decide (errs.getD i 0 * 100000 > measured))) 0

/-- A port that passed the test begins a new session of its link layer: nothing numbered, nothing owed (R253, R262). -/
def Link.newSession (x : Link) : Link :=
  { x with
    accepted := true, buffer := [], retry := { x.retry with nextLseq := 0, oldest := 0, occupancy := 0 }, replaysNow := 0,
    expectLseq := 0, lastRx := none, nakSent := false, toAck := 0, partialRx := [], delivered := none, arrived := [] }

/-- The lane error measurement ends: of `measured` symbols, `errs` were in error on each lane. With no lane failing the port
is accepted with lane 4 as spare, with one it is accepted without a spare, with more training fails; a
saved start then waits for full training. Training waits for the CP (R253, R254, R269). -/
def execAcceptanceTest (port : Fin 20) (measured : Nat) (errs : List Nat) (settings : BitVec 640) (s : State) : Out :=
  let x := s.link port
  let pending := match x.hand with
    | .waiting _ => true
    | _ => false
  if x.status.state ≠ 1 ∨ x.accepted = true ∨ s.fwLive = false ∨ s.clocks.clk.refRack = false ∨ pending = true then .next s
  else
    let failing := failingLanes measured errs
    let bad := if x.status.rxRetired != 7 then setBit failing x.status.rxRetired.toNat true else failing
    let n := popCount bad
    if n ≥ 2 then
      if x.status.savedStart then .next s
      else .next ((s.updLink port fun x => { x with status := { x.status with state := 4, downCode := 0x0303 } }).noteDown 0x0303)
    else
      .next (s.updLink port fun x =>
        let retired : BitVec 3 := match onesOf bad with
          | i :: _ => BitVec.ofNat 3 i
          | [] => 7
        { x with
          status := { x.status with rxRetired := retired, rxSpare := n == 0, txSpare := x.status.txRetired == 7 },
          lanes := x.lanes.mapFinIdx fun i l _ => { l with rxLock := true, rxUse := laneUse retired (n == 0) i },
          settings := settings }.newSession)

/-- A saved-record start that has not passed acceptance after 25 ms falls back to full training, while the CP runs (R253,
R269). -/
def execTrainingFallback (port : Fin 20) (s : State) : Out :=
  let x := s.link port
  if x.status.state = 1 ∧ x.status.savedStart = true ∧ x.accepted = false ∧ s.fwLive = true then
    .next (s.updLink port fun x => { x with
      status := { x.status with savedStart := false, rxRetired := 7, txRetired := 7 }, writeRec := true })
  else .next s

/-! ## Lane sparing -/

/-- A receive lane is failing: it has lost its clock, or its corrections in a millisecond exceed
LANE_LIMIT; the spare is asked for, or the port fails (R263, R265). -/
def execLaneFailing (port : Fin 20) (lane : Fin 5) (lockLost : Bool) (s : State) : Out :=
  let x := s.link port
  let excess := decide (historySum (inLastMs s.time (x.history.getD lane.val [])) > s.fab.linkConfig.laneLimit.toNat)
  if !x.hears || x.lanes[lane].rxUse != 0 || !(lockLost || excess) then .next s
  else
    let s1 := s.updLink port fun x =>
      { x with lanes := x.lanes.set lane { x.lanes[lane] with rxLock := x.lanes[lane].rxLock && !lockLost } }
    match x.rxSwap with
    | some (l, _) => if l = lane then .next s1 else .next (s1.failPort port 0)
    | none =>
      if !x.status.rxSpare then .next (s1.failPort port 0)
      else .next ((s1.updLink port fun x => { x with rxSwap := some (lane, none) }).emit port (.link (.laneSwap lane)))

/-- The peer asks to swap a lane that this port transmits: it answers with the codeword count (R263). -/
def execLaneSwap (port : Fin 20) (rx : LinkRx) (count : BitVec 32) (s : State) : Out :=
  s.hearLink port rx fun c s => match c with
    | .laneSwap lane =>
      let x := s.link port
      if !x.status.txSpare || x.lanes[lane].txUse != 0 || x.txSwap.isSome then s
      else (s.setLink port { x with txSwap := some (lane, count) }).emit port (.link (.swapAck lane count))
    | _ => s

/-- The requester records the codeword count (R263). -/
def execSwapAck (port : Fin 20) (rx : LinkRx) (s : State) : Out :=
  s.hearLink port rx fun c s => match c with
    | .swapAck lane count => s.updLink port fun x =>
      match x.rxSwap with
      | some (l, none) => if l = lane then { x with rxSwap := some (l, some count) } else x
      | _ => x
    | _ => s

/-- At the named codeword count the spare takes the lane's place; the record is rewritten (R263). -/
def execLaneSwapSwitch (port : Fin 20) (tx : Bool) (s : State) : Out :=
  let x := s.link port
  if tx then
    match x.txSwap with
    | none => .next s
    | some (l, _) =>
      let y := { x with
        txSwap := none, status := { x.status with txRetired := BitVec.ofNat 3 l.val, txSpare := false },
        lanes := x.lanes.mapFinIdx fun i z _ => { z with txUse := laneUse (BitVec.ofNat 3 l.val) false i } }
      .next (s.setLink port (y.saveRecord port.val))
  else
    match x.rxSwap with
    | some (l, some _) =>
      let y := { x with
        rxSwap := none, status := { x.status with rxRetired := BitVec.ofNat 3 l.val, rxSpare := false },
        lanes := x.lanes.mapFinIdx fun i z _ => { z with rxUse := laneUse (BitVec.ofNat 3 l.val) false i } }
      .next (s.setLink port (y.saveRecord port.val))
    | _ => .next s

/-- A LANE_SWAP met no SWAP_ACK within 10 µs: the port fails (R263). -/
def execSwapTimeout (port : Fin 20) (s : State) : Out :=
  match (s.link port).rxSwap with
  | some (_, none) => .next (s.failPort port 0)
  | _ => .next s

/-! ## Failure -/

/-- A DOWN link cell fails the port (R261, R265). -/
def execDown (port : Fin 20) (rx : LinkRx) (s : State) : Out :=
  s.hearLink port rx fun c s => match c with
    | .down _ => s.failPort port 0
    | _ => s

/-- A port fails on lost alignment, silence, or REPLAY_LIMIT replays without an advance of ACK (R265). -/
def execPortFail (port : Fin 20) (cause : PortFailCause) (s : State) : Out :=
  let x := s.link port
  if !x.hears then .next s
  else if cause = .replayLimit ∧ x.replaysNow < max 1 s.fab.linkConfig.replayLimit.toNat then .next s
  else .next (s.failPort port 0)

end Sys2Proof.Machine
end

