-- ==== Sys2Proof/Machine/StreamEvents.lean ====
section
/-! DEFINITION. Command streams at work (R208 to R224, R230 to R243): validation, the operations, the
switch of strata, BARRIERs (R308). -/

namespace Sys2Proof.Machine

/-! ## Validation -/

/-- A stream as firmware reads it (R212 to R215). -/
structure StreamText where
  header : BitVec 512
  ops : List (BitVec 512)
  decls : List (BitVec 64)
  ranks : List (BitVec 32)
  deriving DecidableEq, Repr

/-- A field of a stream header (R212). -/
def StreamText.field (x : StreamText) (off lo width : Nat) : Nat := opField x.header off lo width

/-- `n` records of `w` bytes from a device-local address. -/
def State.records (s : State) (p : PartNo) (a w n : Nat) : List Nat := (List.range n).map fun i => s.stackNat p (a + i * w) w

/-- Whether a stream header's own fields are as laid down (R212). -/
def headerOk (x : StreamText) (len : Nat) : Bool :=
  let n := x.field 8 0 32
  x.field 0 0 32 == 0x4D525453 && x.field 4 0 8 == 1 && x.field 4 8 24 == 0
    && decide (1 ≤ n) && decide (n ≤ 65535) && len == 64 * (1 + n) && decide (1 ≤ x.field 0xC 0 16)
    && decide (x.field 0xC 16 16 ≤ 4096) && x.field 0x10 40 24 == 0 && x.field 0x10 0 3 == 0
    && x.field 0x18 40 24 == 0 && x.field 0x18 0 2 == 0
    && decide (1 ≤ x.field 0x20 0 16) && decide (x.field 0x20 0 16 ≤ 16384)
    && x.field 0x24 8 24 == 0 && x.field 0x28 0 192 == 0

/-- The operand bits that an operation lists, as (offset, low bit, width) (R216, R313). -/
def operandFields (code : Nat) : List (Nat × Nat × Nat) :=
  match code with
  | 1 => [(0x10, 0, 16), (0x14, 0, 32), (0x18, 0, 32), (0x20, 0, 64)]
  | 2 => [(0x10, 0, 5), (0x11, 0, 4), (0x12, 0, 12), (0x18, 0, 40)]
  | 3 => [(0x10, 0, 4), (0x11, 0, 8)]
  | 5 => [(0x10, 0, 16), (0x14, 0, 32)]
  | 6 => [(0x10, 0, 16), (0x12, 0, 8), (0x14, 0, 16), (0x16, 0, 10), (0x18, 0, 40), (0x20, 0, 64), (0x28, 0, 64), (0x30, 0, 32)]
  | 7 => [(0x10, 0, 7), (0x12, 0, 16), (0x14, 0, 32)]
  | 8 => [(0x10, 0, 6)]
  | 9 => [(0x10, 0, 6), (0x11, 0, 1), (0x12, 0, 8), (0x18, 0, 64)]
  | 10 => [(0x10, 0, 40)]
  | _ => []

/-- Whether a record's RSVD fields are zero (R215, R216). -/
def recordRsvdOk (w : BitVec 512) : Bool :=
  let used := (operandFields (opCode w)).foldl (fun a f => a + opField w f.1 f.2.1 f.2.2 * 2 ^ (8 * f.1 + f.2.1)) 0
  opField w 0 10 6 == 0 && opField w 4 16 16 == 0 && w.toNat / 2 ^ 128 * 2 ^ 128 == used

/-- The first row of the validation table for the records, declarations and ranks (R213, R214, R215). -/
def StreamText.formOk (x : StreamText) : Bool :=
  x.ops.all (fun w => decide (1 ≤ opCode w) && decide (opCode w ≤ 10) && opPart w != 3 && recordRsvdOk w
      && decide (opPhase w < x.field 0xC 0 16))
    && (x.ops.zip (x.ops.drop 1)).all (fun e => decide (opPhase e.1 ≤ opPhase e.2))
    && x.decls.all (fun d => bitsAt d.toNat 48 16 == 0) && x.ranks.all (fun r => bitsAt r.toNat 16 16 == 0)

/-- The range row for what the records name (R224). -/
def State.listsOk (s : State) (p : PartNo) (x : StreamText) : Bool :=
  x.ops.all fun w => match opCode w with
    | 2 => s.rangeOk p (opField w 0x18 0 40) (64 * opField w 0x12 0 12)
    | 10 => s.rangeOk p (opField w 0x10 0 40) 64
    | _ => true

/-- Token declarations obey R214; every SIGNAL and WAIT is declared (R224). -/
def StreamText.tokensOk (x : StreamText) : Bool :=
  let ds := x.decls.map fun d => (bitsAt d.toNat 0 16, bitsAt d.toNat 16 16, bitsAt d.toNat 32 16)
  ds.all (fun d => decide (d.1 < 1024) && decide (1 ≤ d.2.1) && decide (d.2.2 < x.field 0xC 0 16)
      && (ds.filter fun e => e.1 == d.1 && (e.2.2 == d.2.2 || e.2.2 == d.2.2 + 1)).length == 1)
    && x.ops.all fun w =>
      let k := opPhase w
      (match opSignal w with
        | none => true
        | some t => ds.any fun d => d.1 == t && d.2.2 == k)
        && (opWaits w).all fun t => ds.any fun d => d.1 == t && (d.2.2 == k || d.2.2 + 1 == k)

/-- The operand row for one record; `cur` is the stratum that is current there (R224). -/
def State.operandOk (s : State) (p : PartNo) (cur : Nat) (w : BitVec 512) : Bool :=
  let n := (s.part p).clusters.length
  match opCode w with
  | 1 => match s.stratum p cur with
    | none => true
    | some t => decide (opField w 0x10 0 16 < t.segs.length) && decide (opField w 0x14 0 32 < 2 ^ t.clusters)
        && decide (opField w 0x18 0 32 < 2 ^ t.coresPer)
  | 2 => decide (1 ≤ opField w 0x12 0 12) && opField w 0x18 0 6 == 0 && decide (opField w 0x10 0 5 < n)
  | 7 => decide (opField w 0x10 0 7 ≤ 64) && decide (opField w 0x14 0 32 < 2 ^ n)
  | 10 => opField w 0x10 0 6 == 0
  | _ => true

/-- The operand row: the current stratum follows the switches (R224). -/
def State.operandsOk (s : State) (p : PartNo) : Nat → List (BitVec 512) → Bool
  | _, [] => true
  | cur, w :: t => s.operandOk p cur w && s.operandsOk p (if opCode w = 9 then opField w 0x10 0 6 else cur) t

/-- Phases that hold a STRATUM_SWITCH hold nothing else, and it is their body (R224, R233). -/
def StreamText.switchesOk (x : StreamText) : Bool :=
  x.ops.all fun w => opCode w != 9
    || (opPart w == 1 && (x.ops.filter fun v => opPhase v == opPhase w).length == 1)

/-- The ranges of the records, declarations and ranks of a stream (R212). -/
def StreamText.ranges (h : StreamText) (addr : Nat) : List (Nat × Nat) :=
  [(addr + 64, 64 * h.field 8 0 32), (h.field 0x10 0 40, 8 * h.field 0xC 16 16), (h.field 0x18 0 40, 4 * h.field 0x20 0 16)].filter
    fun r => r.2 != 0

/-- The text of a stream's header alone. -/
def State.streamHead (s : State) (p : PartNo) (addr : Nat) : StreamText :=
  { header := BitVec.ofNat 512 (s.stackNat p addr 64), ops := [], decls := [], ranks := [] }

/-- The owner mismatches that firmware's reads of a stream meet (R27, R224). -/
def State.meetStream (s : State) (p : PartNo) (addr len : Nat) : State :=
  if !s.rangeOk p addr 64 then s
  else
    let s1 := s.meetOwners p addr 64
    let h := s.streamHead p addr
    if s.stackPoisoned p addr 64 || !headerOk h len || (h.ranges addr).any (fun r => !s.rangeOk p r.1 r.2) then s1
    else (h.ranges addr).foldl (fun s r => s.meetOwners p r.1 r.2) s1

/-- Read and check a stream: its text, or the code of the first check that fails, in R224's order. -/
def State.validate (s : State) (p : PartNo) (addr len stratum : Nat) : Except Code StreamText :=
  if !s.rangeOk p addr 64 then .error 0x0209
  else if s.stackPoisoned p addr 64 then .error 0x0201
  else
    let h := s.streamHead p addr
    if !headerOk h len then .error 0x0102
    else
      let n := h.field 8 0 32
      let nd := h.field 0xC 16 16
      let nr := h.field 0x20 0 16
      let ta := h.field 0x10 0 40
      let ra := h.field 0x18 0 40
      if (h.ranges addr).any (fun r => !s.rangeOk p r.1 r.2) then .error 0x0209
      else if (h.ranges addr).any (fun r => s.stackPoisoned p r.1 r.2) then .error 0x0201
      else
        let x : StreamText := { h with
          ops := (s.records p (addr + 64) 64 n).map (BitVec.ofNat 512),
          decls := (s.records p ta 8 nd).map (BitVec.ofNat 64), ranks := (s.records p ra 4 nr).map (BitVec.ofNat 32) }
        let my := h.field 0x20 16 16
        let named := (x.ops.filter fun w => opCode w == 8 || opCode w == 9).map fun w => opField w 0x10 0 6
        if !x.formOk then .error 0x0102
        else if !s.listsOk p x then .error 0x0209
        else if decide (my ≥ nr) || s.device != some ((x.ranks.getD my 0).extractLsb' 0 14)
            || (x.ranks.getD my 0).extractLsb' 14 2 != BitVec.ofNat 2 p.val then .error 0x0102
        else if !x.tokensOk || !s.operandsOk p stratum x.ops then .error 0x0102
        else if (stratum :: named).any (fun k => (s.stratum p k).isNone) then .error 0x0108
        else if (x.ops.filter fun w => opCode w == 9).length > 255 || !x.switchesOk then .error 0x0102
        else .ok x

/-! ## Start and abort -/

/-- STREAM_START's command: the stream waits for its turn (R195, R208). -/
def execStreamStart (mb : MbId) (s : State) : Out :=
  s.command mb 0x10 fun m =>
    let q := s.part mb.part
    let running := match q.stream with
      | some x => x.seq == m.seq
      | none => false
    if mb.chip || running || q.queue.any (fun e => e.1 == m.seq) then s
    else s.updPart mb.part fun x => { x with queue := x.queue ++ [(m.seq, mb)] }

/-- A waiting stream with the lowest sequence number (R208). -/
def firstWaiting : List (BitVec 48 × MbId) → Option (BitVec 48 × MbId)
  | [] => none
  | e :: t => match firstWaiting t with
    | none => some e
    | some f => if f.1 < e.1 then some f else some e

/-- A STREAM_START of a partition with a lower SEQ is accepted and does not wait in the queue yet (R208). -/
def State.earlierStart (s : State) (p : PartNo) (seq : BitVec 48) : Bool :=
  (partMailboxes p).any fun mb =>
    let m := s.mailbox mb
    m.status.state == 2 && m.opcode == 0x10 && decide (m.seq < seq)

/-- The next waiting stream starts, in ascending SEQ: it is validated, its first job begins, its first phases open (R208, R209,
R220, R224, R244); in PS1 or PS2 the partition wakes first (R380). The licence of the full FP4 rate takes effect at the first
stream start (R399). -/
def execStreamBegin (part : PartNo) (s : State) : Out :=
  let q := s.part part
  match q.stream, firstWaiting q.queue with
  | none, some e =>
    if !s.fwLive || !s.partLive part || s.earlierStart part e.1 || bitsAt s.clocks.ps.partState.toNat (2 * part.val) 2 ≠ 0 then .next s
    else
      let m := s.mailbox e.2
      let s1 := s.updPart part fun x => { x with
        queue := x.queue.erase e, strmPos := {}, state := 3, strmStatus := { seq := e.1, state := 1 } }
      let rate := s1.licence.pending &&& 4
      let s1a := { s1 with licence := { granted := s1.licence.granted ||| rate, pending := s1.licence.pending &&& 0x1B } }
      let s2 := (s1a.setJentry e.1 { s1a.jentry e.1 with state := 2, tStarted := s1a.time }).meetStream part (m.arg 8 0 64) (m.arg 0x10 0 32)
      let stratum := m.arg 0x14 0 6
      match s2.validate part (m.arg 8 0 64) (m.arg 0x10 0 32) stratum with
      | .error c => .next ((s2.updPart part fun x => { x with state := 2, strmStatus := {} }).completeCmd e.2 c 0)
      | .ok x =>
        let y : Stream := {
          seq := e.1, mb := e.2, bindGen := BitVec.ofNat 8 (x.field 0x24 0 8), phases := x.field 0xC 0 16,
          ops := x.ops, opStates := x.ops.map fun _ => .waiting, decls := x.decls, ranks := x.ranks,
          myRank := x.field 0x20 16 16 }
        let r := (s2.updPart part fun z => { z with stream := some y }).beginJob part stratum
          (m.arg 0x20 0 1 == 1) (BitVec.ofNat 64 (m.arg 0x18 0 64)) y.bindGen
        match r.2 with
        | some c => .next (r.1.failStream part c)
        | none => .next (r.1.openPhases part (y.phases + 1))
  | _, _ => .next s

/-- Whether a STREAM_START with a sequence number has ended in a partition (R195, R201). -/
def State.streamEnded (s : State) (p : PartNo) (seq : BitVec 48) : Bool :=
  let e := s.jentry seq
  e.seq == seq && e.opcode == 0x10 && e.part == BitVec.ofNat 2 p.val && !e.chip && (e.state == 3 || e.state == 4 || e.state == 5)

/-- A STREAM_ABORT whose target does not run. -/
def State.abortWaiting (s : State) (mb : MbId) (p : PartNo) (seq : BitVec 48) : State :=
  match (s.part p).queue.find? fun e => e.1 == seq with
  | some e =>
    ((s.updPart p fun x => { x with queue := x.queue.erase e }).completeCmd e.2 0x0107 0).completeCmd mb 0 0
  | none => if s.streamEnded p seq then s.completeCmd mb 1 0 else s.completeCmd mb 0x0108 0

/-- STREAM_ABORT ends an open stream with 0x0107; a waiting stream ends at once (R195, R241). -/
def execStreamAbort (mb : MbId) (s : State) : Out :=
  s.command mb 0x11 fun m =>
    let p := mb.part
    let seq := BitVec.ofNat 48 (m.arg 8 0 48)
    let q := s.part p
    if mb.chip then s
    else match q.stream with
      | some x =>
        if x.seq = seq then
          if x.aborters.contains mb then s
          else (s.updStream p fun y => { y with aborters := y.aborters ++ [mb] }).failStream p 0x0107
        else s.abortWaiting mb p seq
      | none => s.abortWaiting mb p seq

/-! ## Operations -/

/-- A mask's cores: the logical clusters and the indices within each (R217). -/
def maskCores (clusters cores : Nat) : List (Fin 1024) :=
  ((onesOf (BitVec.ofNat 32 clusters)).map fun l =>
    (onesOf (BitVec.ofNat 32 cores)).map fun i => toFin 1024 (32 * l + i)).flatten

/-- LAUNCH starts a context on each selected core, as soon as each is free (R217). -/
def execLaunch (part : PartNo) (op : Nat) (s : State) : Out :=
  .next (s.startOp part op 1 fun s _ w =>
    (s.updStream part fun y => { y with toLaunch := y.toLaunch ++ (maskCores (opField w 0x14 0 32) (opField w 0x18 0 32)).map fun k => { op := op, core := k } }).launchReady
      part)

/-- DMA: firmware posts a list of descriptors (R218). -/
def execDmaOperation (part : PartNo) (op : Nat) (s : State) : Out :=
  .next (s.startOp part op 2 fun s _ _ =>
    (s.updStream part fun y => { y with posting := y.posting ++ [(op, 0)] }).postMore part op 8)

/-- QUEUE_SETUP binds a queue set of the current stratum (R216, R230). -/
def execQueueSetup (part : PartNo) (op : Nat) (s : State) : Out :=
  .next (s.startOp part op 3 fun s x w =>
    match s.current part with
    | none => s.failStream part 0x0108
    | some t => match s.bindSet part x t (opField w 0x10 0 4) (BitVec.ofNat 8 (opField w 0x11 0 8)) with
      | none => s.failStream part 0x0102
      | some s1 => s1)

/-- FENCE of a stream (R216). -/
def execStreamFence (part : PartNo) (op : Nat) (s : State) : Out := .next (s.startOp part op 4 fun s _ _ => s)

/-! ## BARRIER -/

/-- The rounds of a BARRIER among R ranks: ceil(log₂ R) (R308). -/
def barrierRounds (ranks : Nat) : Nat := ((List.range 15).find? fun k => decide (ranks ≤ 2 ^ k)).getD 15

/-- Send the BARRIER packet of a round (R277, R308). -/
def State.sendBarrier (s : State) (p : PartNo) (x : Stream) (id round : Nat) : State :=
  let goal := (x.ranks.getD ((x.myRank + 2 ^ round) % x.ranks.length) 0)
  s.send { dest := goal.extractLsb' 0 14, dpart := goal.extractLsb' 14 2, cls := 3, type := 4, src := s.self,
           spart := BitVec.ofNat 2 p.val,
           desc := mkDesc [(0, 0, 16, id), (2, 0, 4, round), (4, 0, 16, x.myRank), (8, 0, 48, x.seq.toNat)] }

/-- The kept arrival that a BARRIER's round may use (R308). -/
def Stream.arrival (x : Stream) (kept : List KeptBarrier) (id round : Nat) : Option KeptBarrier :=
  let n := x.ranks.length
  let from_ := (x.myRank + n - 2 ^ round % n) % n
  let r := x.ranks.getD from_ 0
  kept.find? fun b => b.id.toNat == id && b.round.toNat == round && b.rank.toNat == from_
    && b.src == r.extractLsb' 0 14 && b.spart == r.extractLsb' 14 2
    && (match x.rankSeqs.lookup from_ with
      | none => true
      | some q => b.seq == q)

/-- Let a running BARRIER go through the rounds whose arrivals are kept (R308). -/
def State.advanceBarrier (s : State) (p : PartNo) (op : Nat) : Nat → State
  | 0 => s
  | fuel + 1 => match (s.part p).stream with
    | none => s
    | some x => match x.ops[op]?, x.rounds.lookup op with
      | some w, some k =>
        let id := opField w 0x10 0 16
        if decide (k ≥ barrierRounds x.ranks.length) || x.ending.isSome || !s.fwLive then s
        else match x.arrival (s.part p).kept id k with
          | none => s
          | some b =>
            let r := b.rank.toNat
            let y := { x with
              rounds := x.rounds.map fun e => if e.1 = op then (op, k + 1) else e,
              rankSeqs := if (x.rankSeqs.lookup r).isSome then x.rankSeqs else x.rankSeqs ++ [(r, b.seq)] }
            let stale (z : KeptBarrier) : Bool := z.rank == b.rank && z.src == b.src && z.spart == b.spart && z.seq != b.seq
            let s1 := s.updPart p fun q => { q with stream := some y, kept := (q.kept.erase b).filter fun z => !stale z }
            let s2 := if k + 1 < barrierRounds x.ranks.length then s1.sendBarrier p y id (k + 1) else s1
            s2.advanceBarrier p op fuel
      | _, _ => s

/-- Let every BARRIER of a partition's stream go on. -/
def State.advanceBarriers (s : State) (p : PartNo) : State :=
  match (s.part p).stream with
  | none => s
  | some x => (x.rounds.map (·.1)).foldl (fun s op => s.advanceBarrier p op 16) s

/-- BARRIER starts: its first round is sent (R219, R308). -/
def execBarrier (part : PartNo) (op : Nat) (s : State) : Out :=
  .next (s.startOp part op 5 fun s x w =>
    let s1 := s.updStream part fun y => { y with rounds := y.rounds ++ [(op, 0)] }
    if barrierRounds x.ranks.length = 0 then s1
    else (s1.sendBarrier part x (opField w 0x10 0 16) 0).advanceBarrier part op 16)

/-- A BARRIER has not completed within TIMEOUT (R219). -/
def execBarrierTimeout (part : PartNo) (op : Nat) (s : State) : Out :=
  match (s.part part).stream with
  | none => .next s
  | some x => match x.rounds.lookup op with
    | none => .next s
    | some k =>
      if k ≥ barrierRounds x.ranks.length || x.opStates[op]? != some .started then .next s
      else .next (s.failStream part 0x0306)

/-- An arrival from a rank whose SEQ the stream has recorded as another (R308). -/
def Stream.stale (x : Stream) (b : KeptBarrier) : Bool :=
  (x.ranks[b.rank.toNat]?.any fun r => b.src == r.extractLsb' 0 14 && b.spart == r.extractLsb' 14 2)
    && (x.rankSeqs.lookup b.rank.toNat).any fun q => q != b.seq

/-- What a BARRIER packet says (R277). -/
def KeptBarrier.ofPkt (p : Pkt) : KeptBarrier :=
  { src := p.src, spart := p.spart, id := BitVec.ofNat 16 (Pkt.field p 0 0 16),
    round := BitVec.ofNat 4 (Pkt.field p 2 0 4), rank := BitVec.ofNat 16 (Pkt.field p 4 0 16),
    seq := BitVec.ofNat 48 (Pkt.field p 8 0 48) }

/-- A BARRIER arrival is discarded for want of room (R290, R308). -/
def State.ctlOverflow (s : State) : State :=
  { s with fab := { s.fab with drop := { s.fab.drop with ctlOverflow := satInc s.fab.drop.ctlOverflow } } }

/-- The CP keeps an arrival, at most 256 of a partition, and a running BARRIER uses it; one whose SEQ is not the recorded one is
discarded (R308). A partition that does not run keeps none. -/
def State.keepBarrier (s : State) (p : Pkt) : State :=
  let pt := pktPart p
  let b := KeptBarrier.ofPkt p
  if !s.partLive pt then s
  else if ((s.part pt).stream.any fun x => x.stale b) then s
  else if (s.part pt).kept.length ≥ 256 then s.ctlOverflow
  else (s.updPart pt fun x => { x with kept := x.kept ++ [b] }).advanceBarriers pt

/-- Firmware that serves empties the CP's receive ring, oldest first (R290). -/
def State.readRing (s : State) : State :=
  if s.fwLive then s.fab.cpRing.foldl State.keepBarrier { s with fab := { s.fab with cpRing := [] } } else s

/-- A BARRIER packet enters the CP's receive ring of 4,096 entries; one that finds it full is discarded (R290). -/
def execBarrierArrival (p : Pkt) (s : State) : Out :=
  s.takeDelivered p 3 4 fun s =>
    if s.fab.cpRing.length ≥ 4096 then s.ctlOverflow
    else { s with fab := { s.fab with cpRing := s.fab.cpRing ++ [p] } }.readRing

/-! ## Completion -/

/-- Whether some context of an operation runs, or waits to be launched (R216). -/
def State.opRuns (s : State) (p : PartNo) (x : Stream) (op : Nat) : Bool :=
  x.toLaunch.any (fun e => e.op == op)
    || (s.partCores p).any fun k => match (s.core p k).ctx with
      | some c => c.op == op
      | none => false

/-- Whether descriptors of an operation are still on a channel (R216). -/
def State.opPosts (s : State) (p : PartNo) (op : Nat) : Bool :=
  ((s.part p).clusters.map (toFin 32)).any fun cl => s.dma[cl].chans.toList.any fun c => c.descs.any fun d => d.op == some op

/-- Whether a started operation has come to its completion (R216). -/
def State.opDone (s : State) (p : PartNo) (x : Stream) (op : Nat) (w : BitVec 512) : Bool :=
  match opCode w with
  | 1 => !s.opRuns p x op && !s.opPosts p op
  | 2 => decide ((x.posting.lookup op).getD 0 ≥ opField w 0x12 0 12) && !s.opPosts p op
  | 4 => (x.opStates.take op).all (· == .completed)
  | 5 => decide ((x.rounds.lookup op).getD 0 ≥ barrierRounds x.ranks.length)
  | 6 => !s.opRuns p x op
  | 9 => x.switching.isNone
  | _ => true

/-- An operation completes: its SIGNAL, the phases that open, and the end of the stream after the last
(R216, R220 to R222). -/
def execOperationComplete (part : PartNo) (op : Nat) (s : State) : Out :=
  match (s.part part).stream with
  | none => .next s
  | some x => match x.ops[op]?, x.opStates[op]? with
    | some w, some .started =>
      if !s.fwLive || x.ending.isSome || !s.opDone part x op w then .next s
      else
        let y := { x with
          opStates := x.opStates.set op .completed, colls := x.colls.filter fun c => c.op != op,
          posting := x.posting.filter fun e => e.1 != op, rounds := x.rounds.filter fun e => e.1 != op }
        let s1 := s.updPart part fun q => { q with stream := some y }
        let s2 := match opSignal w with
          | none => s1
          | some t => s1.signalToken part t
        let s3 := s2.openPhases part (y.phases + 1)
        match (s3.part part).stream with
        | none => .next s3.retry
        | some z =>
          if z.ending.isNone && z.opStates.all (· == .completed) && decide (z.opened ≥ z.phases) then
            .next (s3.finishStream part).retry
          else .next s3.retry
    | _, _ => .next s

/-! ## Strata -/

/-- STRATUM_LOAD prepares a resident stratum (R234). -/
def execStratumLoad (part : PartNo) (op : Nat) (s : State) : Out :=
  .next (s.startOp part op 8 fun s x w =>
    let n := opField w 0x10 0 6
    match s.stratum part n with
    | none => s.failStream part 0x0108
    | some t => s.updPart part fun q => { q with
        prepared := { stratum := BitVec.ofNat 6 n, valid := true }, prep := some (s.prepare part x t) })

/-- The queues of a partition that are not at rest: core and queue. -/
def State.usedQueues (s : State) (p : PartNo) : List (Fin 1024 × Fin 8) :=
  ((s.partCores p).map fun k => (List.finRange 8).map fun q => (k, q)).flatten.filter fun e =>
    s.qin p e.1 e.2 != {} || s.qout p e.1 e.2 != {}

/-- Step 2 of a switch: the outgoing job ends, its state is saved, bindings are cleared and inbound sides
reset; one that held words gives the job 0x0120 (R235). -/
def State.endForSwitch (s : State) (p : PartNo) : State :=
  let qs := s.usedQueues p
  let held := qs.any fun e => !(s.qin p e.1 e.2).words.isEmpty
  let cur := s.current p
  let s1 := s.updStream p fun y => y.updJob fun j => if held && j.fail == 0 && !j.poisoned then { j with fail := 0x0120 } else j
  let s2 := s1.endJob p 0
  let s3 := match cur with
    | none => s2
    | some t => s2.saveStratum p t
  qs.foldl (fun s e =>
    let b := s.qout p e.1 e.2
    let s1 := if b.valid then s.setQout p e.1 e.2 { b with valid := false } else s
    if (s1.qin p e.1 e.2).cfg.enable then s1.resetSide p e.1 e.2 else s1) s3

/-- STRATUM_SWITCH ends the current job and saves its persistent state (R232 to R235). -/
def execStratumSwitch (part : PartNo) (op : Nat) (s : State) : Out :=
  .next (s.startOp part op 9 fun s _ w =>
    if (s.stratum part (opField w 0x10 0 6)).isNone then s.failStream part 0x0108
    else
      let s1 := s.endForSwitch part
      s1.updPart part fun q => { q with
        stream := q.stream.map fun y => { y with switching := some op },
        prepared := { q.prepared with valid := false }, prep := none, strmStatus := { q.strmStatus with state := 3 } })

/-- Save and restore have finished: set 0 is bound and the incoming job begins (R230, R232, R235). -/
def execSwitchRestoreDone (part : PartNo) (s : State) : Out :=
  match (s.part part).stream with
  | none => .next s
  | some x => match x.switching, x.switching.bind fun op => x.ops[op]? with
    | some _, some w =>
      if !s.fwLive || x.ending.isSome then .next s
      else
        let n := opField w 0x10 0 6
        let r := s.beginJob part n (opField w 0x11 0 1 == 1) (BitVec.ofNat 64 (opField w 0x18 0 64))
          (BitVec.ofNat 8 (opField w 0x12 0 8))
        let s1 := r.1.updStream part fun y => { y with switching := none }
        match r.2 with
        | some c => .next (s1.failStream part c)
        | none => .next s1
    | _, _ => .next s

/-- ENERGY_CHECKPOINT writes the running job's record (R238, R240). -/
def execEnergyCheckpoint (part : PartNo) (op : Nat) (s : State) : Out :=
  .next (s.startOp part op 10 fun s x w =>
    let a := opField w 0x10 0 40
    if !s.rangeOk part a 64 then s.failStream part 0x0209
    else match x.job with
      | none => s
      | some j => s.stackWrite part a (s.energyRec part x j true).bytes false)

end Sys2Proof.Machine
end

