-- ==== Sys2Proof/Machine/Collective.lean ====
section
/-! DEFINITION. Collectives (R310 to R330): the group record, resolution, the launch of lanes, multicast
slots. -/

namespace Sys2Proof.Machine

/-- A stored group record: its bits below the ranks, and the ranks (R310). -/
structure GroupRec where
  head : Nat
  ranks : List Nat
  deriving DecidableEq, Repr

/-- MEMBERS of a group record. -/
def GroupRec.members (r : GroupRec) : Nat := bitsAt r.head (8 * 4 + 16) 11

/-- LANES of a group record. -/
def GroupRec.laneCount (r : GroupRec) : Nat := bitsAt r.head (8 * 8) 5

/-- Lane entry `l` of a group record. -/
def GroupRec.lane (r : GroupRec) (l : Nat) : Lane :=
  let b := 8 * (0x10 + 4 * l)
  { core := bitsAt r.head b 10, inQ := bitsAt r.head (b + 10) 3, outQ := bitsAt r.head (b + 13) 3 }

/-- The lanes of a group record. -/
def GroupRec.lanes (r : GroupRec) : List Lane := (List.range r.laneCount).map r.lane

/-- MAGIC, GROUP, MEMBERS, LANES and RSVD are as laid down (R310). -/
def GroupRec.formOk (r : GroupRec) (group : Nat) : Bool :=
  bitsAt r.head 0 32 == 0x50524743 && bitsAt r.head 32 16 == group
    && decide (2 ≤ r.members) && decide (r.members ≤ 1024) && bitsAt r.head (32 + 27) 5 == 0
    && decide (1 ≤ r.laneCount) && decide (r.laneCount ≤ 16) && bitsAt r.head (64 + 5) 59 == 0
    && (List.range 16).all fun l =>
      if l < r.laneCount then bitsAt r.head (8 * (0x10 + 4 * l) + 16) 16 == 0
      else bitsAt r.head (8 * (0x10 + 4 * l)) 32 == 0

/-- Every rank below RANK_COUNT, none twice, MY_RANK present (R311). -/
def GroupRec.ranksOk (r : GroupRec) (x : Stream) : Bool :=
  r.ranks.all (fun k => decide (k < x.ranks.length)) && decide r.ranks.Nodup && r.ranks.contains x.myRank

/-- The member's own position (R310). -/
def GroupRec.pos (r : GroupRec) (x : Stream) : Nat := (r.ranks.findIdx? (· == x.myRank)).getD 0

/-- The device and partition of the rank at a position, counted modulo N (R213, R310). -/
def GroupRec.memberAt (r : GroupRec) (x : Stream) (i : Nat) : BitVec 32 := x.ranks.getD (r.ranks.getD (i % r.ranks.length) 0) 0

/-- Whether a register names a member's core and queue (R311). -/
def namesPeer (q : QPeer) (m : BitVec 32) (core queue : Nat) : Bool :=
  q.device == m.extractLsb' 0 14 && q.part == m.extractLsb' 14 2 && q.core.toNat == core && q.queue.toNat == queue

/-- The lane's two queues are bound to the same lane of the neighbours (R311). -/
def State.laneBound (s : State) (p : PartNo) (x : Stream) (r : GroupRec) (l : Lane) : Bool :=
  let k : Fin 1024 := toFin 1024 l.core
  let i := s.qin p k (toFin 8 l.inQ)
  let o := s.qout p k (toFin 8 l.outQ)
  let n := r.ranks.length
  let at_ := r.pos x
  i.cfg.enable && !i.cfg.host && namesPeer i.src (r.memberAt x (at_ + n - 1)) l.core l.outQ
    && o.valid && namesPeer o.dst (r.memberAt x (at_ + 1)) l.core l.inQ

/-- The queues of a group's lanes. -/
def laneQueues (ls : List Lane) : List (Nat × Nat) := (ls.map fun l => [(l.core, l.inQ), (l.core, l.outQ)]).flatten

/-- The coordinates w:z and one of y, x of a rank's device (R5). -/
def coordsOf (m : BitVec 32) : Nat × Nat × Nat := (bitsAt m.toNat 6 8, bitsAt m.toNat 3 3, bitsAt m.toNat 0 3)

/-- Broadcast members on one axis: axis x is false. None where the geometry fails (R311). -/
def GroupRec.axis (r : GroupRec) (x : Stream) : Option Bool :=
  let ms := (List.range r.ranks.length).map (r.memberAt x)
  let one (f : BitVec 32 → Nat) : Bool := ms.all fun m => f m == f (ms.getD 0 0)
  let rising (f : BitVec 32 → Nat) : Bool := (ms.zip (ms.drop 1)).all fun e => decide (f e.1 < f e.2)
  if !one (fun m => bitsAt m.toNat 14 2) || !one (fun m => (coordsOf m).1) then none
  else if one (fun m => (coordsOf m).2.1) && rising (fun m => (coordsOf m).2.2) then some false
  else if one (fun m => (coordsOf m).2.2) && rising (fun m => (coordsOf m).2.1) then some true
  else none

/-- Read and check a group record, in the order of R311's table: the resolved group or the code. -/
def State.resolve (s : State) (p : PartNo) (x : Stream) (w : BitVec 512) : Except Code Group :=
  let a := opField w 0x18 0 40
  if a % 64 ≠ 0 ∨ s.rangeOk p a 0x50 = false then .error 0x0209
  else if s.stackPoisoned p a 0x50 then .error 0x0201
  else
    let head := s.stackNat p a 0x50
    let n := (GroupRec.mk head []).members
    if !s.rangeOk p a (0x50 + 2 * n) then .error 0x0209
    else if s.stackPoisoned p (a + 0x50) (2 * n) then .error 0x0201
    else
      let r : GroupRec := ⟨head, s.records p (a + 0x50) 2 n⟩
      let qs := laneQueues r.lanes
      if !r.formOk (opField w 0x10 0 16) then .error 0x0102
      else if !r.ranksOk x || !r.lanes.all (s.laneBound p x r) || qs.any x.claimed.contains then .error 0x0401
      else if opField w 0x12 0 2 = 2 ∧ r.axis x = none then .error 0x0401
      else if x.groups.length ≥ 1024 then .error 0x0106
      else .ok { number := BitVec.ofNat 16 (opField w 0x10 0 16), ranks := r.ranks, pos := r.pos x, lanes := r.lanes }

/-- The owner mismatches that firmware's reads of a group record meet (R27, R311). -/
def State.meetGroup (s : State) (p : PartNo) (w : BitVec 512) : State :=
  let a := opField w 0x18 0 40
  let n := (GroupRec.mk (s.stackNat p a 0x50) []).members
  if a % 64 ≠ 0 ∨ s.rangeOk p a 0x50 = false then s
  else if s.stackPoisoned p a 0x50 || !s.rangeOk p (a + 0x50) (2 * n) then s.meetOwners p a 0x50
  else s.meetOwners p a (0x50 + 2 * n)

/-- A broadcast's geometry is checked for a group that an earlier start resolved too (R311). -/
def Group.axis (g : Group) (x : Stream) : Option Bool := (GroupRec.mk 0 g.ranks).axis x

/-- Elements of a TYPE in one 64-byte word of the wire format (R314). -/
def wordElems (type : Nat) : Nat := if type = 8 then 64 else if type = 10 then 3 else 16

/-- KIND, OP and TYPE go together (R313, R40). -/
def collectiveTypeOk (kind op type : Nat) : Bool :=
  if kind = 0 then (op == 0 && (type == 0 || type == 1 || type == 9 || type == 10)) || ((op == 1 || op == 2) && (type == 0 || type == 1))
  else decide (kind < 3) && op == 0 && type == 8

/-- The operand check of COLLECTIVE_START (R313). -/
def collectiveOk (t : Stratum) (w : BitVec 512) : Bool :=
  let kind := opField w 0x12 0 2
  let src := AddrOp.ofWord (BitVec.ofNat 64 (opField w 0x20 0 64))
  let dst := AddrOp.ofWord (BitVec.ofNat 64 (opField w 0x28 0 64))
  collectiveTypeOk kind (opField w 0x12 2 2) (opField w 0x12 4 4) && (t.segment (opField w 0x14 0 16)).isSome
    && (kind == 2 || opField w 0x16 0 10 == 0) && decide (1 ≤ opField w 0x30 0 32)
    && src.formOk && src.loc && dst.formOk && dst.loc

/-- What the multicast slots of a broadcast's root hold, but for the core: the last member along the + direction from the root,
and the coordinates of every other member (R303, R326). -/
def Group.mcast (g : Group) (x : Stream) : ColMcast :=
  let axis := (g.axis x).getD false
  let coord (m : BitVec 32) : Nat := if axis then (coordsOf m).2.1 else (coordsOf m).2.2
  let me := x.ranks.getD x.myRank 0
  let far (m : BitVec 32) : Nat := (coord m + 8 - coord me) % 8
  let others := ((List.range g.ranks.length).map fun i => x.ranks.getD (g.ranks.getD i 0) 0).filter (· != me)
  let last := others.foldl (fun a m => if far a < far m then m else a) me
  { axis := axis, mask := others.foldl (fun a m => setBit a (coord m) true) 0,
    device := last.extractLsb' 0 14, part := last.extractLsb' 14 2 }

/-- A COLLECTIVE_START that fails at its member: R328 for its lanes, where its group is resolved (R311, R313, R327). -/
def State.failStart (s : State) (p : PartNo) (group : BitVec 16) (seq : BitVec 32) (lanes : List Lane) (code : Code) : State :=
  (((lanes.foldl (fun s l => s.failLane p code l) s)).updPart p fun q => { q with
    colFail := { group := group, seq := seq, code := code } }).failStream p code

/-- Run a resolved group's collective: its SEQ, its lanes (R315, R316). -/
def State.runCollective (s : State) (p : PartNo) (op : Nat) (w : BitVec 512) (g : Group) : State :=
  let kind := opField w 0x12 0 2
  let root := kind == 2 && g.pos == opField w 0x16 0 10
  let next := if g.nextSeq = BitVec.allOnes 32 then 1 else g.nextSeq + 1
  let s1 := s.updStream p fun y =>
    let c : Coll := {
      op := op, group := g.number, seq := g.nextSeq, lanes := g.lanes, pos := g.pos, size := g.ranks.length,
      hash := collectiveHash kind (opField w 0x12 2 2) (opField w 0x12 4 4) g.lanes.length g.ranks.length (opField w 0x16 0 10)
        (opField w 0x30 0 32) g.number.toNat g.nextSeq.toNat (BitVec.ofNat 64 (opField w 0x28 0 64)),
      mcast := if root then some (g.mcast y) else none }
    { y with
      groups := y.groups.filter (fun h => h.number != g.number) ++ [{ g with nextSeq := next }], colls := y.colls ++ [c],
      toLaunch := y.toLaunch ++ g.lanes.zipIdx.map fun l => { op := op, core := toFin 1024 l.1.core, lane := l.2 } }
  match (s1.part p).stream with
  | none => s1
  | some y =>
    (s1.updPart p fun q => { q with colStatus := { groups := BitVec.ofNat 11 y.groups.length } }).launchReady p

/-- COLLECTIVE_START: operands, resolution, then a lane context on each lane's core (R311 to R316). -/
def execCollectiveStart (part : PartNo) (op : Nat) (s : State) : Out :=
  .next (s.startOp part op 6 fun s x w =>
    let number := BitVec.ofNat 16 (opField w 0x10 0 16)
    let old := x.groups.find? fun g => g.number == number
    let seq : BitVec 32 := match old with
      | some g => g.nextSeq
      | none => 1
    match s.current part with
    | none => s.failStart part number seq ((old.map Group.lanes).getD []) 0x0108
    | some t =>
      if !collectiveOk t w then s.failStart part number seq ((old.map Group.lanes).getD []) 0x0102
      else
        let kind := opField w 0x12 0 2
        let found : Except Code Group := match old with
          | some g => if kind = 2 ∧ g.axis x = none then .error 0x0401 else .ok g
          | none => s.resolve part x w
        match found with
        | .error c => (s.meetGroup part w).failStart part number seq ((old.map Group.lanes).getD []) c
        | .ok g =>
          let s := if old.isSome then s else s.meetGroup part w
          let unit := g.lanes.length * wordElems (opField w 0x12 4 4)
          if decide (opField w 0x16 0 10 ≥ g.ranks.length) || opField w 0x30 0 32 % unit ≠ 0 then
            s.failStart part number seq g.lanes 0x0102
          else
            let s1 := if old.isSome then s else s.updStream part fun y => { y with claimed := y.claimed ++ laneQueues g.lanes }
            s1.runCollective part op w g)

end Sys2Proof.Machine
end

