-- ==== Sys2Proof/Machine/HostMap.lean ====
section
/-! DEFINITION. The register maps: what a reader of a register block sees at an offset (R101, R142, R143,
R163, R164, R177, R202, R203, R244, R273, R309, R332, R367, R368, R384, R402, R432, R433, R464). -/

namespace Sys2Proof.Machine

/-- Registers at byte offsets as one number of bytes, the lowest first. -/
def blockNat (rs : List (Nat × Nat)) : Nat := (rs.map fun r => r.2 * 2 ^ (8 * r.1)).foldl (· + ·) 0

/-- The core block's bytes 0x000 to 0x07F (R100, R417); CORE_PC is the next instruction's offset. -/
def State.coreBlock (s : State) (p : PartNo) (k : Fin 1024) : List Byte :=
  let c := s.core p k
  bytesOfNat 128 (blockNat ((List.range 14).map fun i =>
    (8 * i, if i = 3 then c.pc.toNat else ((s.coreReg p k c i).getD 0).toNat)))

/-- A core's queue block, 1 KiB (R163). -/
def State.queueBlock (s : State) (p : PartNo) (k : Fin 1024) : List Byte :=
  bytesOfNat 1024 (blockNat (((List.finRange 8).map fun q =>
    let i := s.qin p k q
    let o := s.qout p k q
    let b := 0x80 * q.val
    [(b, i.cfg.word.toNat), (b + 8, (i.src.word false 0).toNat), (b + 0x10, i.st.word.toNat), (b + 0x18, i.counter.toNat),
     (b + 0x28, (o.dst.word o.valid o.breakReason).toNat), (b + 0x30, o.st.word.toNat)]).flatten))

/-- DMA_CH_CTRL as a reader sees it (R177). -/
def DmaChan.ctrl (c : DmaChan) : DmaChCtrl := { irqPending := c.irqPending }

/-- A cluster's DMA engine registers by offset: width and value (R177). -/
def DmaEng.reg (e : DmaEng) (o : Nat) : Option (Nat × Nat) :=
  if o = 0 then some (32, e.status.word.toNat)
  else if o = 8 then some (64, e.err.toNat)
  else if 0x40 ≤ o ∧ o < 0x240 then
    let c := e.chans[toFin 16 ((o - 0x40) / 0x20)]
    match (o - 0x40) % 0x20 with
    | 0 => some (64, c.status.word.toNat)
    | 8 => some (64, c.progress.word.toNat)
    | 0x10 => some (64, c.count.word.toNat)
    | 0x18 => some (32, c.ctrl.word.toNat)
    | _ => none
  else none

/-- A cluster's DMA engine registers, 1 KiB (R177, R417). -/
def DmaEng.block (e : DmaEng) : List Byte :=
  bytesOfNat 1024 (blockNat ((List.range 72).map fun i => (8 * i, match e.reg (8 * i) with
    | some r => r.2
    | none => 0)))

/-! ## Registers that follow from the state -/

/-- MB_STATUS.SERVICE: a resetting partition's mailboxes read 3 (R190, R193). -/
def State.service (s : State) (chip : Bool) (p : PartNo) : BitVec 2 :=
  if s.host.service != 0 then s.host.service
  else if !chip && (s.part p).state == 1 then 3 else 0

/-- MB_STATUS as a reader sees it (R190). -/
def State.mbStatus (s : State) (mb : MbId) : MbStatus :=
  { (s.mailbox mb).status with service := s.service mb.chip mb.part }

/-- CHIP_HOST (R202). -/
def State.chipHost (s : State) : ChipHost :=
  { partOwner := s.host.partOwner, chipOwner := s.host.chipOwner, portAUp := s.host.ports[(0 : Fin 2)].up,
    portBUp := s.host.ports[(1 : Fin 2)].up, layout := s.host.layout }

/-- PORT_JOURNAL (R202). -/
def State.portJournal (s : State) : PortJournal := { bootId := s.host.bootId, chipResets := s.host.chipResets }

/-- PORT_INFO's bits (R202). -/
def State.portInfo (s : State) (host : Bool) : BitVec 32 :=
  let owned := (List.finRange 4).foldl (fun a p => setBit a p.val (s.partExists p && s.owner p == host)) (0 : BitVec 4)
  packFields [(0, 1, if host then 1 else 0), (1, 1, if s.host.chipOwner == host then 1 else 0), (2, 4, owned.toNat),
    (6, 3, s.host.layout.toNat)]

/-- PART_STATUS (R203). -/
def State.partStatus (s : State) (p : PartNo) : PartStatus :=
  let q := s.part p
  { state := q.state, service := s.service false p, owner := s.owner p,
    logicalClusters := BitVec.ofNat 6 q.clusters.length, dumpHeld := q.dumpHeld }

/-- MB_DONE (R203). -/
def State.mbDone (s : State) (p : PartNo) : Word :=
  (partMailboxes p).foldl (fun a mb => setBit a mb.n.val ((s.mailbox mb).status.state == 3)) 0

/-- STRM_RESIDENT (R244). -/
def State.resident (s : State) (p : PartNo) : Word := (s.part p).strata.foldl (fun a e => setBit a e.1 true) 0

/-- COL_STATUS: RUNNING counts the collectives of which a lane context runs (R332). -/
def State.shownCol (s : State) (p : PartNo) : ColStatus :=
  let ctxs := (s.partCores p).filterMap fun k => (s.core p k).ctx
  let cs : List Coll := match (s.part p).stream with
    | none => []
    | some x => x.colls.filter fun (c : Coll) => ctxs.any fun y => y.lane && y.op == c.op
  { (s.part p).colStatus with running := BitVec.ofNat 10 cs.length }

/-- A phase token's register (R244). -/
def PhaseToken.shown (t : PhaseToken) : PhaseToken := { t with complete := t.isComplete }

/-- FAB_CONG_STAT (R309). -/
def State.congStat (s : State) : FabCongStat := { limited := BitVec.ofNat 9 s.fab.limiters.length, echoes := s.fab.echoes }

/-- The words of CLU_CORE_MAP for a cluster (R402). -/
def coreMapWord (l : List (BitVec 6)) (j : Nat) : Word :=
  packFields ((List.range 8).map fun i => (6 * i, 6, (l.getD (8 * j + i) 0).toNat))

/-- The first 28 bytes of a cairn record as a number (R387). -/
def Cairn.body (c : Cairn) : BitVec 224 :=
  packFields [(0, 4, c.stage.toNat), (4, 4, c.startKind.toNat), (8, 3, c.outcome.toNat), (16, 16, c.status.toNat),
    (32, 32, c.durationUs.toNat), (64, 64, c.tEnd.toNat), (128, 32, c.detail.toNat), (160, 16, c.tested.toNat),
    (176, 16, c.good.toNat), (192, 16, c.mappedOut.toNat), (208, 16, c.disagree.toNat)]

/-- A cairn record's 32 bytes; one never written is all zero (R387, R388). -/
def Cairn.word (c : Cairn) : BitVec 256 :=
  if c.outcome = 0 then 0
  else packFields [(0, 224, c.body.toNat), (224, 32, (crc32 (bytesOfNat 28 c.body.toNat)).toNat)]

/-! ## The chip block -/

/-- Registers of the memory-controller blocks (R142). -/
def Mc.reg (m : Mc) (o : Nat) : Option (Nat × Nat) :=
  match o with
  | 0 => some (32, m.status.word.toNat)
  | 8 => some (32, m.temp.word.toNat)
  | 0x10 => some (64, m.errCount.word.toNat)
  | 0x18 => some (64, m.errLog.word.toNat)
  | 0x20 => some (64, m.spare.word.toNat)
  | 0x28 => some (32, m.patrol.word.toNat)
  | _ => none

/-- Registers of a fabric port's block (R273). -/
def Link.reg (x : Link) (o : Nat) : Option (Nat × Nat) :=
  match o with
  | 0 => some (32, x.ctrl.word.toNat)
  | 8 => some (64, x.status.word.toNat)
  | 0x10 => some (64, x.peer.word.toNat)
  | 0x18 => some (64, x.expect.word.toNat)
  | 0x20 => some (64, x.err.word.toNat)
  | 0x28 => some (64, x.retry.word.toNat)
  | _ => if 0x30 ≤ o ∧ o < 0x58 ∧ o % 8 = 0 then some (64, x.lanes[toFin 5 ((o - 0x30) / 8)].word.toNat) else none

/-- A register of a fabric port's block as a reader sees it: STAND_IN is RSVD but on P18 and P19 (R9, R247, R273). -/
def State.portReg (s : State) (n : Fin 20) (o : Nat) : Option (Nat × Nat) :=
  let x := s.fab.links[n]
  Link.reg { x with expect := s.expectAt n, ctrl := if n.val < 18 then { x.ctrl with standIn := 0 } else x.ctrl } o

/-- Registers of the fabric block (R309). -/
def State.fabReg (s : State) (o : Nat) : Option (Nat × Nat) :=
  match o with
  | 0 => some (32, s.fab.epoch.word.toNat)
  | 8 => some (32, s.fab.ring.word.toNat)
  | 0x10 => some (32, s.fab.arb.word.toNat)
  | 0x18 => some (32, s.fab.congCfg.word.toNat)
  | 0x20 => some (64, s.congStat.word.toNat)
  | 0x28 => some (64, s.fab.drop.word.toNat)
  | 0x30 => some (32, s.fab.probeCtrl.word.toNat)
  | 0x38 => some (64, s.fab.probeResult.word.toNat)
  | _ => if 0x40 ≤ o ∧ o < 0x80 ∧ o % 8 = 0 then some (64, s.fab.counts[toFin 8 ((o - 0x40) / 8)].word.toNat) else none

/-- Registers of the power block (R367). -/
def State.powerReg (s : State) (o : Nat) : Option (Nat × Nat) :=
  match o with
  | 0 => some (64, s.power.status.word.toNat)
  | 8 => some (64, s.power.limits.word.toNat)
  | 0x10 => some (32, s.power.config.word.toNat)
  | 0x18 => some (64, s.power.estimate.word.toNat)
  | 0x20 => some (32, s.power.guard.word.toNat)
  | 0x28 => some (64, s.power.thm.word.toNat)
  | 0x30 => some (64, s.power.headroom.word.toNat)
  | _ =>
    if 0x40 ≤ o ∧ o < 0x60 ∧ o % 8 = 0 then some (64, s.power.safety[toFin 4 ((o - 0x40) / 8)].word.toNat)
    else if 0x80 ≤ o ∧ o < 0x100 ∧ o % 4 = 0 ∧ o % 0x20 < 20 then
      some (32, (Table.get 0 s.power.cycles ((o - 0x80) / 0x20 * 5 + o % 0x20 / 4)).toNat)
    else if 0x100 ≤ o ∧ o < 0x140 ∧ o % 4 = 0 then some (32, s.power.vf[toFin 16 ((o - 0x100) / 4)].word.toNat)
    else if 0x200 ≤ o ∧ o < 0x300 ∧ o % 8 = 0 then
      let c : Fin 32 := toFin 32 ((o - 0x200) / 8)
      some (64, if s.boot.maps[c].retired then 0 else s.power.clu[c].word.toNat)
    else none

/-- Registers of the clock and state block (R384). -/
def State.clockReg (s : State) (o : Nat) : Option (Nat × Nat) :=
  match o with
  | 0 => some (32, s.clocks.clk.word.toNat)
  | 8 => some (64, s.time.toNat)
  | 0x10 => some (64, s.clocks.load.toNat)
  | 0x18 => some (32, s.clocks.ctrl.word.toNat)
  | 0x20 => some (64, s.clocks.rt.word.toNat)
  | 0x28 => some (64, s.clocks.psConfig.word.toNat)
  | 0x30 => some (32, s.clocks.ps.word.toNat)
  | 0x38 => some (32, s.clocks.wake.word.toNat)
  | _ => none

/-- Registers of the bring-up block (R402), cairn records in words of 64 bits. -/
def State.bootReg (s : State) (o : Nat) : Option (Nat × Nat) :=
  match o with
  | 0 => some (64, s.boot.status.word.toNat)
  | 8 => some (32, s.boot.config.word.toNat)
  | 0x10 => some (32, s.licence.word.toNat)
  | 0x18 => some (64, s.boot.defects.word.toNat)
  | _ =>
    if o % 8 ≠ 0 then none
    else if 0x100 ≤ o ∧ o < 0x200 then some (64, s.boot.maps[toFin 32 ((o - 0x100) / 8)].word.toNat)
    else if 0x400 ≤ o ∧ o < 0x800 then
      let c : Fin 32 := toFin 32 ((o - 0x400) / 0x20)
      some (64, if s.boot.maps[c].retired then 0 else (coreMapWord s.boot.coreMaps[c] (o % 0x20 / 8)).toNat)
    else if 0x800 ≤ o ∧ o < 0x940 then
      some (64, bitsAt s.boot.cairn[toFin 10 ((o - 0x800) / 0x20)].word.toNat (o % 0x20 * 8) 64)
    else if 0xA00 ≤ o ∧ o < 0xB40 then
      some (64, bitsAt s.boot.previous[toFin 10 ((o - 0xA00) / 0x20)].word.toNat (o % 0x20 * 8) 64)
    else none

/-- Switch-overs within the latest 24 hours (R428, R432). -/
def State.recentSwitches (s : State) : Nat := (s.rcv.recent.filter fun t => decide ((s.time - t).toNat < 86400000000000)).length

/-- CP_STATUS as a reader sees it (R432). -/
def State.cpStatus (s : State) : CpStatus :=
  { s.rcv.cp with
    cpbTestAgeS := match s.rcv.cpbPassAt with
      | none => 1023
      | some t => satOf 10 ((s.time - t).toNat / 1000000000),
    recent := satOf 2 s.recentSwitches }

/-- Registers of the recovery block (R432). -/
def State.rcvReg (s : State) (o : Nat) : Option (Nat × Nat) :=
  match o with
  | 0 => some (64, s.rcv.config.word.toNat)
  | 8 => some (64, s.rcv.status.word.toNat)
  | 0x10 => some (64, s.cpStatus.word.toNat)
  | 0x18 => some (32, 0)
  | 0x20 => some (32, s.rcv.safe.word.toNat)
  | _ => none

/-- Registers of the security block (R464). -/
def State.secReg (s : State) (o : Nat) : Option (Nat × Nat) :=
  match o with
  | 0 => some (64, s.mgmt.status.word.toNat)
  | 8 => some (64, s.mgmt.sec.word.toNat)
  | 0x10 => some (64, s.mgmt.fw.word.toNat)
  | 0x18 => some (32, s.mgmt.trial.word.toNat)
  | _ => none

/-- A register of the chip block: its width and the value a reader sees. -/
def State.chipReg (s : State) (o : Nat) : Option (Nat × Nat) :=
  if o = 0x1000 then some (64, s.host.lastSeq.toNat)
  else if o = 0x1008 then some (32, s.chipHost.word.toNat)
  else if o = 0x1010 then some (64, s.host.chipEvt.ctrl.word.toNat)
  else if o = 0x1018 then some (64, s.host.chipEvt.tail.word.toNat)
  else if 0x100000 ≤ o ∧ o < 0x10C000 then s.hbm.mcs[toFin 12 ((o - 0x100000) / 0x1000)].reg (o % 0x1000)
  else if o = 0x10C000 then some (32, s.memConfig.word.toNat)
  else if 0x140000 ≤ o ∧ o < 0x145000 then s.portReg (toFin 20 ((o - 0x140000) / 0x400)) (o % 0x400)
  else if o = 0x148000 then some (32, s.fab.linkConfig.word.toNat)
  else if 0x150000 ≤ o ∧ o < 0x151000 then s.fabReg (o - 0x150000)
  else if 0x160000 ≤ o ∧ o < 0x161400 then
    if o % 4 = 0 ∧ o % 0x40 ≤ 0x20 then
      some (32, (Table.get 0 s.fab.hist (((o - 0x160000) / 0x100 * 4 + o % 0x100 / 0x40) * 9 + o % 0x40 / 4)).toNat)
    else none
  else if 0x180000 ≤ o ∧ o < 0x181000 then s.powerReg (o - 0x180000)
  else if 0x190000 ≤ o ∧ o < 0x191000 then s.clockReg (o - 0x190000)
  else if 0x1A0000 ≤ o ∧ o < 0x1A1000 then s.bootReg (o - 0x1A0000)
  else if 0x1B0000 ≤ o ∧ o < 0x1B1000 then s.rcvReg (o - 0x1B0000)
  else if 0x1C0000 ≤ o ∧ o < 0x1C1000 then s.secReg (o - 0x1C0000)
  else if 0x300000 ≤ o ∧ o < 0x310000 ∧ o % 4 = 0 then
    let e := (o - 0x300000) / 0x8000 * 16384 + (o % 0x8000) / 2
    some (32, (Table.get 31 s.fab.routes e).toNat + 65536 * (Table.get 31 s.fab.routes (e + 1)).toNat)
  else none

/-! ## A partition block -/

/-- A register of a partition block: its width and the value a reader sees. -/
def State.partReg (s : State) (p : PartNo) (o : Nat) : Option (Nat × Nat) :=
  let q := s.part p
  if o = 0 then some (32, (s.partStatus p).word.toNat)
  else if o = 8 then some (64, q.bar2Base.toNat * 2 ^ 30)
  else if o = 0x10 then some (64, (s.mbDone p).toNat)
  else if o = 0x18 then some (64, q.lastSeq.toNat)
  else if o = 0x20 then some (64, q.evt.ctrl.word.toNat)
  else if o = 0x28 then some (64, q.evt.tail.word.toNat)
  else if o = 0x2000 then some (64, q.capacity.word.toNat)
  else if o = 0x2008 then some (32, q.gen.word.toNat)
  else if o = 0x2010 then some (64, q.poisonLog.word.toNat)
  else if o = 0x2018 then some (64, q.sramCount.word.toNat)
  else if 0x2040 ≤ o ∧ o < 0x2080 ∧ o % 8 = 0 then some (64, q.windows[toFin 8 ((o - 0x2040) / 8)].word.toNat)
  else if 0x4000 ≤ o ∧ o < 0x4200 then
    let h := q.hostQs[toFin 16 ((o - 0x4000) / 0x20)]
    match o % 0x20 with
    | 0 => some (32, h.cfg.word.toNat)
    | 8 => some (64, h.base.word.toNat)
    | 0x10 => some (32, h.head.toNat)
    | 0x18 => some (32, h.tail.word.toNat)
    | _ => none
  else if 0x10000 ≤ o ∧ o < 0x18000 then
    if (o - 0x10000) / 0x400 < q.clusters.length then s.dma[s.cluster p ((o - 0x10000) / 0x400)].reg (o % 0x400) else none
  else if o = 0x20000 then some (64, q.strmStatus.word.toNat)
  else if o = 0x20008 then some (64, q.strmPos.word.toNat)
  else if o = 0x20010 then some (64, (s.resident p).toNat)
  else if o = 0x20018 then some (32, q.prepared.word.toNat)
  else if 0x21000 ≤ o ∧ o < 0x23000 ∧ o % 8 = 0 then some (64, (s.token p ((o - 0x21000) / 8)).shown.word.toNat)
  else if o = 0x30000 then some (64, (s.shownCol p).word.toNat)
  else if o = 0x30008 then some (64, q.colFail.word.toNat)
  else if 0x30100 ≤ o ∧ o < 0x30180 ∧ o % 8 = 0 then some (64, q.colMcast[toFin 16 ((o - 0x30100) / 8)].word.toNat)
  else if o = 0x40000 then some (64, (microjoules q.energy.total).toNat)
  else if o = 0x40008 then some (64, (microjoules q.energy.compute).toNat)
  else if o = 0x40010 then some (64, (microjoules q.energy.memory).toNat)
  else if o = 0x40018 then some (64, (microjoules q.energy.fabric).toNat)
  else if o = 0x50000 then some (64, q.rcv.word.toNat)
  else none

/-- A journal entry's 48 bytes before CHECK (R201). -/
def JEntry.body (e : JEntry) : BitVec 384 :=
  packFields [(0, 48, e.seq.toNat), (48, 6, e.mailbox.toNat), (54, 2, e.part.toNat), (56, 1, if e.chip then 1 else 0),
    (57, 1, if e.port then 1 else 0), (58, 3, e.state.toNat), (64, 16, e.opcode.toNat), (80, 16, e.result.toNat),
    (96, 32, e.tag.toNat), (128, 64, e.tAccepted.toNat), (192, 64, e.tStarted.toNat), (256, 64, e.tEnded.toNat),
    (320, 64, e.detail.toNat)]

/-- A journal entry's 64 bytes; an empty entry is all zero (R201, R204). -/
def JEntry.word (e : JEntry) : BitVec 512 :=
  if e.state = 0 then 0
  else packFields [(0, 384, e.body.toNat), (384, 32, (crc32 (bytesOfNat 48 e.body.toNat)).toNat)]

/-- An event entry's 16 bytes (R197). -/
def EvtEntry.word (e : EvtEntry) : BitVec 128 :=
  packFields [(0, 64, e.time.toNat), (64, 16, e.code.toNat), (80, 2, e.part.toNat), (82, 1, if e.chip then 1 else 0),
    (96, 32, e.detail.toNat)]

end Sys2Proof.Machine
end

