-- ==== Sys2Proof/Machine/HostEvents.lean ====
section
/-! DEFINITION. The host interface at work (R178 to R207): ports, BAR0 and BAR2 accesses, mailboxes, and
the commands that a driver sends for streams, strata, DMA channels, the journal and energy. -/

namespace Sys2Proof.Machine

/-- A port's index. -/
def portIdx (host : Bool) : Fin 2 := if host then 1 else 0

/-- A port's function. -/
def State.hostPort (s : State) (host : Bool) : HostPort := s.host.ports[portIdx host]

/-- Replace a port's function. -/
def State.setHostPort (s : State) (host : Bool) (x : HostPort) : State :=
  { s with host := { s.host with ports := s.host.ports.set (portIdx host) x } }

/-- A port reset: the function's own state, and BAR2_BASE of the partitions its host owns (R180). -/
def State.resetPort (s : State) (host up : Bool) : State :=
  (List.finRange 4).foldl (fun s p => if s.owner p == host then s.updPart p fun q => { q with bar2Base := 0 } else s)
    (s.setHostPort host { up := up })

/-- FLR, hot reset, link down or PERST# of a port (R180). -/
def execPciePortReset (host : Bool) (kind : PortResetKind) (s : State) : Out :=
  .next (s.resetPort host (match kind with
    | .flr | .hot => (s.hostPort host).up
    | .linkDown | .perst => false))

/-- A PCI Express link that was down trains and comes up, outside a halt and outside PS4; its
slot then supplies the reference clock (R369, R385, R386). -/
def execPcieLinkUp (host : Bool) (s : State) : Out :=
  if s.boot.status.halted || s.clocks.pkg == .ps4 then .next s
  else
    let clk := if host then { s.clocks.clk with refPcieB := true } else { s.clocks.clk with refPcieA := true }
    .next ({ s with clocks := { s.clocks with clk := clk } }.setHostPort host { s.hostPort host with up := true })

/-! ## The BAR2 window -/

/-- The partition of a BAR2 offset, and the device-local address (R183). -/
def State.bar2At (s : State) (host : Bool) (offset : Nat) : PartNo × Nat :=
  let ap := (s.hostPort host).bar2Gib * 2 ^ 28
  let p : PartNo := toFin 4 (offset / ap)
  (p, (s.part p).bar2Base.toNat * 2 ^ 30 + offset % ap)

/-- A start is running in the compute-only style, so that most accesses are refused (R398). -/
def State.resetting (s : State) : Bool := s.boot.starting && s.boot.status.startKind == 3

/-- A BAR2 access is served: its partition exists, is the host's own and lies below C_p, and no compute-only reset runs (R182,
R183, R398). -/
def State.bar2Ok (s : State) (host : Bool) (offset len : Nat) (write : Bool) : Bool :=
  let at_ := s.bar2At host offset
  !s.resetting && decide (offset + len ≤ (s.hostPort host).bar2Gib * 2 ^ 30) && s.partExists at_.1 && s.owner at_.1 == host
    && decide (at_.2 + len ≤ s.capacity at_.1) && !(write && decide (at_.2 < 0x10000000))

/-- BAR2 accesses to a partition are held: it is in or after its reset's dump, or in a package state without
memory (R186, R380). -/
def State.bar2Held (s : State) (p : PartNo) : Bool :=
  (!s.boot.status.ready || (s.part p).state == 4 || ((s.part p).state == 1 && (match (s.part p).reset with
    | some r => r.draining
    | none => true)) || s.clocks.pkg != .run)

/-- All-ones bytes. -/
def allOnes (n : Nat) : List Byte := List.replicate n 0xFF

/-- Perform a host read through BAR2: split completions at 256-byte boundaries, each of a poisoned granule zeros with
EP and an event (R124, R184). -/
def State.bar2Read (s : State) (host : Bool) (offset len : Nat) : State :=
  let p := (s.bar2At host offset).1
  let a := (s.bar2At host offset).2
  if !s.bar2Ok host offset len false then
    let s1 := s.violate host true false offset
    { s1 with host := { s1.host with readOut := [(allOnes len, false)] } }
  else
    let cs := (pieces 0 a len).map fun x => (x.1, s.viewBytes p x.1 x.2, s.view p x.1 == .poison)
    let s1 := cs.foldl (fun s c =>
      match c.2.2, s.granuleAt p c.1 with
      | true, some key => s.eventPart p 0x0211 ((keyStack key).val + (if host then 16 else 0))
      | _, _ => s) (s.meetOwners p a len)
    { s1 with host := { s1.host with readOut := cs.map fun c => (c.2.1, c.2.2) } }

/-- Perform a host write through BAR2: requests to the memory controllers, granule by granule (R183, R184). -/
def State.bar2Write (s : State) (host : Bool) (offset : Nat) (bytes : List Byte) (ep : Bool) : State :=
  let p := (s.bar2At host offset).1
  let a := (s.bar2At host offset).2
  if !s.bar2Ok host offset bytes.length true then s.violate host true true offset
  else { s with mesh := s.mesh ++ (pieces 0 a bytes.length).map fun x =>
    { src := .host host, part := p, space := 0, addr := x.1, bytes := (bytes.drop (x.1 - a)).take x.2, poison := ep } }

/-! ## Mailboxes -/

/-- Whether a mailbox's block is visible to a host (R181, R187). -/
def State.seesMb (s : State) (host : Bool) (mb : MbId) : Bool :=
  if mb.chip then s.host.chipOwner == host && decide (mb.n.val < 16)
  else s.partExists mb.part && s.owner mb.part == host

/-- A memory write that a port sent earlier is still to be performed (R185). -/
def State.hostWrites (s : State) (host : Bool) : Bool := s.mesh.any fun r => r.src == .host host

/-- The host's write of POSTED takes effect: honoured for a FREE mailbox it sees (R191). -/
def State.post (s : State) (host : Bool) (mb : MbId) : State :=
  let m := s.mailbox mb
  if !s.seesMb host mb || m.status.state != 0 || s.resetting then s.violate host false true (mbOffset mb + 0x80)
  else s.setMailbox mb { m with status := { m.status with state := 1 }, port := host }

/-- The host's write of FREE takes effect: honoured for a DONE mailbox; the mailbox of a CHIP_OWNER_SET completes the move
(R187, R191). -/
def State.free (s : State) (host : Bool) (mb : MbId) : State :=
  let m := s.mailbox mb
  if !s.seesMb host mb || m.status.state != 3 || s.resetting then s.violate host false true (mbOffset mb + 0x80)
  else
    let s1 := s.setMailbox mb { m with status := { m.status with state := 0 } }
    match s1.host.ownerMove with
    | some (k, owner) =>
      if mb.chip && k == mbKey mb then { s1 with host := { s1.host with chipOwner := owner, ownerMove := none } } else s1
    | none => s1

/-! ## Accesses that a port holds -/

/-- The partition of a BAR2 access. -/
def State.heldPart (s : State) (host : Bool) : HeldAccess → Option PartNo
  | .bar2Read o _ => some (s.bar2At host o).1
  | .bar2Write o _ _ => some (s.bar2At host o).1
  | _ => none

/-- Whether an access is a memory write. -/
def HeldAccess.writes : HeldAccess → Bool
  | .bar2Write _ _ _ => true
  | _ => false

/-- Whether an access may be served, with those that the port received `before` it and still holds: a BAR2 access to a
partition whose accesses are not held, a read after the port's earlier writes to its granules, a status write after all
its earlier memory writes (R119, R185, R186). One that R182 refuses does not wait. -/
def State.mayServe (s : State) (host : Bool) (before : List HeldAccess) (x : HeldAccess) : Bool :=
  let free (p : PartNo) : Bool := !s.bar2Held p && before.all fun y => s.heldPart host y != some p
  match x with
  | .bar2Read o len =>
    let at_ := s.bar2At host o
    !s.bar2Ok host o len false || (free at_.1 && !s.readWaits (.host host) at_.1 at_.2 len)
  | .bar2Write o bytes _ => !s.bar2Ok host o bytes.length true || free (s.bar2At host o).1
  | _ => !s.hostWrites host && !before.any HeldAccess.writes

/-- Serve an access. -/
def State.serveAccess (s : State) (host : Bool) : HeldAccess → State
  | .bar2Read o len => s.bar2Read host o len
  | .bar2Write o bytes ep => s.bar2Write host o bytes ep
  | .post mb => s.post host mb
  | .free mb => s.free host mb

/-- Replace the accesses that a port holds. -/
def State.setHeld (s : State) (host : Bool) (l : List HeldAccess) : State := s.setHostPort host { s.hostPort host with held := l }

/-- An access arrives at a port: it is served, or held (R185, R186). A port that is down receives none. -/
def State.hostAccess (s : State) (host : Bool) (x : HeldAccess) : State :=
  let l := (s.hostPort host).held
  if s.mayServe host l x then s.serveAccess host x else s.setHeld host (l ++ [x])

/-- The held accesses of a port that may go on are served, in the order received (R186; log 2). -/
def State.serveHeld (s : State) (host : Bool) : State :=
  let r := (s.hostPort host).held.foldl (fun (a : State × List HeldAccess) x =>
    if a.1.mayServe host a.2 x then (a.1.serveAccess host x, a.2) else (a.1, a.2 ++ [x])) (s, [])
  if (s.hostPort host).held.isEmpty then s else r.1.setHeld host r.2

/-- In PS3, and until the wake from it has ended, BAR accesses are held (R380, R382). -/
def State.asleep (s : State) : Bool := s.clocks.pkg == .ps3 || s.clocks.pkg == .waking false

/-- An access to a BAR: performed, or held by its port while the package sleeps (R380). -/
def State.atBar (s : State) (host : Bool) (x : BarAccess) (f : State → State) : State :=
  if s.asleep then
    let h := s.hostPort host
    s.setHostPort host { h with resting := h.resting ++ [x] }
  else f s

/-- A host read through BAR2 (R183, R184, R186). -/
def execBar2Read (host : Bool) (offset len : Nat) (s : State) : Out :=
  if !(s.hostPort host).up then .next s
  else .next (s.atBar host (.bar2Read offset len) fun s => s.hostAccess host (.bar2Read offset len))

/-- A host write through BAR2 (R183, R184, R186). -/
def execBar2Write (host : Bool) (offset : Nat) (bytes : List Byte) (ep : Bool) (s : State) : Out :=
  if !(s.hostPort host).up then .next s
  else .next (s.atBar host (.bar2Write offset bytes ep) fun s => s.hostAccess host (.bar2Write offset bytes ep))

/-- MB_POST (R185, R191). -/
def execMbPost (host : Bool) (mb : MbId) (s : State) : Out :=
  .next (s.atBar host (.post mb) fun s => s.hostAccess host (.post mb))

/-- MB_FREE (R185, R191). -/
def execMbFree (host : Bool) (mb : MbId) (s : State) : Out :=
  .next (s.atBar host (.free mb) fun s => s.hostAccess host (.free mb))

/-! ## Event logs -/

/-- An event log: a partition's, or the chip's. -/
def State.evtLog (s : State) : Option PartNo → EvtLog
  | none => s.host.chipEvt
  | some p => (s.part p).evt

/-- Replace an event log. -/
def State.setEvtLog (s : State) (log : Option PartNo) (x : EvtLog) : State :=
  match log with
  | none => { s with host := { s.host with chipEvt := x } }
  | some p => s.updPart p fun q => { q with evt := x }

/-- The port of a log's owner (R189). -/
def State.logOwner (s : State) : Option PartNo → Bool
  | none => s.host.chipOwner
  | some p => s.owner p

/-- Whether a host sees a log's block (R181). -/
def State.seesLog (s : State) (host : Bool) (log : Option PartNo) : Bool :=
  s.logOwner log == host && (match log with
    | none => true
    | some p => s.partExists p)

/-- The host writes EVT_CTRL: a HEAD beyond TAIL is ignored; a HEAD short of TAIL raises the vector (R198,
R199). -/
def State.writeEvtCtrl (s : State) (host : Bool) (log : Option PartNo) (value : Word) : State :=
  let l := s.evtLog log
  let c := EvtCtrl.ofWord value
  let offset := match log with
    | none => 0x1010
    | some p => partBlock p + 0x20
  if !s.seesLog host log || s.resetting || decide ((l.tail.tail - c.head).toNat > 256) then s.violate host false true offset
  else
    let s1 := s.setEvtLog log { l with ctrl := c }
    if c.enable && l.tail.tail != c.head then s1.raiseVector (s.logOwner log) c.vector else s1

/-- EVT_HEAD_WRITE (R199). -/
def execEvtHeadWrite (host : Bool) (log : Option PartNo) (value : Word) (s : State) : Out :=
  .next (s.atBar host (.evtHead log value) fun s => s.writeEvtCtrl host log value)

/-! ## Register accesses -/

/-- The chip block's regions that are served while a compute-only reset runs: port registers, bring-up block, journal
(R398). -/
def servedInReset (o : Nat) : Bool :=
  (decide (0x140000 ≤ o) && decide (o < 0x150000)) || (decide (0x1A0000 ≤ o) && decide (o < 0x1A1000))
    || (decide (0x200000 ≤ o) && decide (o < 0x240000))

/-- Whether a host sees a BAR0 offset's region (R181, R187, R398). -/
def State.sees (s : State) (host : Bool) (o : Nat) : Bool :=
  if o < 0x400000 then
    s.host.chipOwner == host
      && (!s.resetting || servedInReset o)
  else if 0x1000000 ≤ o ∧ o < 0x2000000 then
    let p : PartNo := toFin 4 ((o - 0x1000000) / 0x400000)
    s.partExists p && s.owner p == host && !s.resetting
  else if 0x2000000 ≤ o ∧ o < 0x2002000 then !s.resetting
  else true

/-- A register at a BAR0 offset. -/
def State.bar0Reg (s : State) (host : Bool) (o : Nat) : Option (Nat × Nat) :=
  if o < 0x400000 then s.chipReg o
  else if 0x1000000 ≤ o ∧ o < 0x2000000 then s.partReg (toFin 4 ((o - 0x1000000) / 0x400000)) (o % 0x400000)
  else match o with
    | 0x2002000 => some (32, (s.portInfo host).toNat)
    | 0x2002008 => some (64, s.portJournal.word.toNat)
    | 0x2002010 => some (64, (s.hostPort host).violation.word.toNat)
    | _ => none

/-- The mailbox and the offset within it of a BAR0 offset in a mailbox area (R190). -/
def mbAt (o : Nat) : Option (MbId × Nat) :=
  if 0x8000 ≤ o ∧ o < 0x9000 then some (⟨true, 0, toFin 64 ((o - 0x8000) / 0x100)⟩, o % 0x100)
  else if 0x1000000 ≤ o ∧ o < 0x2000000 ∧ 0x8000 ≤ o % 0x400000 ∧ o % 0x400000 < 0xC000 then
    some (⟨false, toFin 4 ((o - 0x1000000) / 0x400000), toFin 64 ((o % 0x400000 - 0x8000) / 0x100)⟩, o % 0x100)
  else none

/-- An access form that the command and response areas take (R190). -/
def areaForm (r width base : Nat) : Bool :=
  [4, 8, 16, 32, 64].contains width && r % width == 0 && decide (base ≤ r) && decide (r + width ≤ base + 64)

/-- Whether a read has a form its target takes (R8, R190). -/
def State.readForm (s : State) (host : Bool) (o width : Nat) : Bool :=
  match mbAt o with
  | some (_, r) =>
    if r < 0x80 then areaForm r width 0 || areaForm r width 0x40
    else [1, 2, 4, 8].contains width && r % width == 0 && (r != 0x80 || decide (width ≤ 4))
  | none => [1, 2, 4, 8].contains width && o % width == 0 && (match s.bar0Reg host o with
    | some (w, _) => decide (8 * width ≤ w)
    | none => true)

/-- The part of a register that stands at an offset within 8 bytes of the register's own. -/
def State.regSlice (s : State) (host : Bool) (o width : Nat) : Option (List Byte) :=
  ([o, o - o % 4, o - o % 8].eraseDups).findSome? fun b => match s.bar0Reg host b with
    | none => none
    | some (w, v) => if o + width ≤ b + w / 8 then some ((bytesOfNat 8 v).drop (o - b) |>.take width) else none

/-- Whether an offset lies within a register that begins before it: a write there breaks R8. -/
def State.insideReg (s : State) (host : Bool) (o : Nat) : Bool :=
  [o - o % 4, o - o % 8].any fun b => decide (b < o) && (match s.bar0Reg host b with
    | none => false
    | some (w, _) => decide (o < b + w / 8))

/-- The bytes of a mailbox, response hidden between acceptance and DONE (R190). -/
def State.mbBytes (s : State) (mb : MbId) : List Byte :=
  let m := s.mailbox mb
  bytesOfNat 64 m.cmd.toNat ++ bytesOfNat 64 (if m.status.state = 2 then 0 else m.resp.toNat)
    ++ bytesOfNat 8 (s.mbStatus mb).word.toNat ++ bytesOfNat 8 m.seq.toNat ++ zeros 112

/-- An event log's 4 KiB of entries from a place on (R197). -/
def EvtLog.bytes (l : EvtLog) (o width : Nat) : List Byte :=
  ((bytesOfNat 16 (Table.get {} l.entries (o / 16)).word.toNat).drop (o % 16)).take width

/-- What a BAR0 read returns: registers, mailboxes, event logs, the journal, the MSI-X structures; zeros elsewhere (R9, R181,
R190, R197, R201). -/
def State.bar0Read (s : State) (host : Bool) (o width : Nat) : List Byte :=
  match mbAt o with
  | some (mb, r) => ((s.mbBytes mb).drop r).take width
  | none =>
    if 0xC000 ≤ o ∧ o < 0xD000 then s.host.chipEvt.bytes (o - 0xC000) width
    else if 0x200000 ≤ o ∧ o < 0x240000 then
      ((bytesOfNat 64 (Table.get {} s.host.journal ((o - 0x200000) / 64)).word.toNat).drop (o % 64)).take width
    else if 0x1000000 ≤ o ∧ o < 0x2000000 ∧ 0xC000 ≤ o % 0x400000 ∧ o % 0x400000 < 0xD000 then
      (s.part (toFin 4 ((o - 0x1000000) / 0x400000))).evt.bytes (o % 0x400000 - 0xC000) width
    else if 0x2000000 ≤ o ∧ o < 0x2001000 then
      let e := Table.get {} (s.hostPort host).msix ((o - 0x2000000) / 16)
      let w : BitVec 128 := packFields [(0, 64, e.addr.toNat), (64, 32, e.data.toNat), (96, 1, if e.masked then 1 else 0)]
      ((bytesOfNat 16 w.toNat).drop (o % 16)).take width
    else if 0x2001000 ≤ o ∧ o < 0x2001020 then ((bytesOfNat 32 (s.hostPort host).pba.toNat).drop (o - 0x2001000)).take width
    else (s.regSlice host o width).getD (zeros width)

/-- Replace bytes of a 64-byte area. -/
def patchArea (area : BitVec 512) (at_ width value : Nat) : BitVec 512 :=
  wordOfBytes 512 (mergeBytes (bytesOfNat 64 area.toNat) (bytesOfNat width value) at_)

/-- Write the command area of a FREE mailbox (R190). -/
def State.writeCommand (s : State) (host : Bool) (mb : MbId) (r width value o : Nat) : State :=
  let m := s.mailbox mb
  if !areaForm r width 0 || m.status.state != 0 then s.violate host false true o
  else s.setMailbox mb { m with cmd := patchArea m.cmd r width value }

/-- Send a vector that is pending and no longer held back (R196). -/
def State.sendPending (s : State) (host : Bool) (vec : Nat) : State :=
  let fn := s.hostPort host
  if fn.pba.getLsbD vec && fn.up && fn.busMaster && fn.msixEnable && !fn.msixMask && !(Table.get {} fn.msix vec).masked then
    (s.setHostPort host { fn with pba := setBit fn.pba vec false }).raiseVector host (BitVec.ofNat 8 vec)
  else s

/-- Write the MSI-X table (R181, R196): message address, data, the mask bit. -/
def State.writeMsix (s : State) (host : Bool) (o width value : Nat) : State :=
  if !(width == 4 || width == 8) || o % width ≠ 0 then s.violate host false true (0x2000000 + o)
  else
    let fn := s.hostPort host
    let e := Table.get {} fn.msix (o / 16)
    let old : BitVec 128 := packFields [(0, 64, e.addr.toNat), (64, 32, e.data.toNat), (96, 1, if e.masked then 1 else 0)]
    let w := natOfBytes (mergeBytes (bytesOfNat 16 old.toNat) (bytesOfNat width value) (o % 16))
    let e1 : MsixEntry := { addr := BitVec.ofNat 64 (bitsAt w 0 64), data := BitVec.ofNat 32 (bitsAt w 64 32), masked := w.testBit 96 }
    (s.setHostPort host { fn with msix := Table.set {} fn.msix (o / 16) e1 }).sendPending host (o / 16)

/-- RCV_CONFIG as written: out-of-range values of CP_WD_US are clamped (R432). -/
def RcvConfig.written (w : Word) : RcvConfig :=
  let r := RcvConfig.ofWord w
  { r with cpWdUs := BitVec.ofNat 14 (max 100 (min 10000 r.cpWdUs.toNat)) }

/-- Write a register of the chip block that the chip owner may write (R142, R384, R432); none for any
other. -/
def State.writeChip (s : State) (host : Bool) (o value : Nat) : Option State :=
  let w64 : Word := BitVec.ofNat 64 value
  match o with
  | 0x1010 => some (s.writeEvtCtrl host none w64)
  | 0x10C000 =>
    let r := MemConfig.ofWord (BitVec.ofNat 32 value)
    some { s with memConfig := { s.memConfig with modeNext := r.modeNext, patrolHours := r.patrolHours } }
  | 0x190020 =>
    let c := s.clocks
    some (if value.testBit 2 then { s with clocks := { c with rt := { c.rt with slip := false } } } else s)
  | 0x190028 => some { s with clocks := { s.clocks with psConfig := PsConfig.ofWord w64 } }
  | 0x190038 => some { s with clocks := { s.clocks with wake := WakeConfig.ofWord (BitVec.ofNat 32 value) } }
  | 0x1B0000 => some { s with rcv := { s.rcv with config := RcvConfig.written w64 } }
  | _ => none

/-- A host's write of a register, or of an area (R181, R182, R190). -/
def State.writeReg (s : State) (host : Bool) (o width value : Nat) : State :=
  match mbAt o with
  | some (mb, r) =>
    if r < 0x40 then s.writeCommand host mb r width value o
    else if r = 0x80 ∧ width = 4 then
      if value % 8 = 1 then s.hostAccess host (.post mb)
      else if value % 8 = 0 then s.hostAccess host (.free mb) else s.violate host false true o
    else if r < 0x90 then s.violate host false true o else s
  | none =>
    if 0x2000000 ≤ o ∧ o < 0x2001000 then s.writeMsix host (o - 0x2000000) width value
    else match s.bar0Reg host o with
      | none => if (0xC000 ≤ o ∧ o < 0xD000) ∨ (0x200000 ≤ o ∧ o < 0x240000) ∨ (0x2001000 ≤ o ∧ o < 0x2001020)
          ∨ (0x1000000 ≤ o ∧ o < 0x2000000 ∧ 0xC000 ≤ o % 0x400000 ∧ o % 0x400000 < 0xD000)
          ∨ s.insideReg host o = true then s.violate host false true o else s
      | some (w, _) =>
        if 8 * width ≠ w then s.violate host false true o
        else if o < 0x400000 then (s.writeChip host o value).getD (s.violate host false true o)
        else if o < 0x1000000 ∨ 0x2000000 ≤ o then s.violate host false true o
        else
          let p : PartNo := toFin 4 ((o - 0x1000000) / 0x400000)
          let r := o % 0x400000
          if r = 8 then s.updPart p fun q => { q with bar2Base := BitVec.ofNat 10 (bitsAt value 30 10) }
          else if r = 0x20 then s.writeEvtCtrl host (some p) (BitVec.ofNat 64 value)
          else if 0x4000 ≤ r ∧ r < 0x4200 ∧ r % 0x20 = 0x10 then
            s.writeHqHead host p (toFin 16 ((r - 0x4000) / 0x20)) (BitVec.ofNat 32 value)
          else s.violate host false true o

/-- The capabilities in a function's lists (R178). -/
def pciCaps : List PciCap := [.msix, .aer, .resizableBar, .doe, .mctp, .flr, .aspmL1]

/-- What a read of configuration space returns: Vendor ID, Device ID by the fused limit set, the stepping, the Class
Code; a BAR's size, and whether it is 64-bit and prefetchable; 1 for a capability listed (R178). Where in configuration
space each stands PCI Express lays down, not the spec (log 85). -/
def State.configRead (s : State) (host : Bool) : ConfigItem → List Byte
  | .identity =>
    let device := if s.fuses.limitSet = 1 then 0x9217 else if s.fuses.limitSet = 2 then 0x9218 else 0x9216
    bytesOfNat 8 (0x1F7C + device * 2 ^ 16 + s.fuses.stepping.toNat * 2 ^ 32 + 0x120000 * 2 ^ 40)
  | .bar n => match n.val with
    | 0 => bytesOfNat 8 (2 ^ 26) ++ [1, 0]
    | 2 => bytesOfNat 8 ((s.hostPort host).bar2Gib * 2 ^ 30) ++ [1, 1]
    | _ => zeros 10
  | .capability c => [if pciCaps.contains c then 1 else 0]

/-- A host's read of BAR0; one that the host may not make is counted (R8, R9, R181, R182). -/
def State.hostRead (s : State) (host : Bool) (o width : Nat) : State :=
  if s.sees host o && s.readForm host o width then { s with host := { s.host with readOut := [(s.bar0Read host o width, false)] } }
  else
    let s1 := s.violate host false false o
    { s1 with host := { s1.host with readOut := [(allOnes width, false)] } }

/-- A host's write of BAR0; one that the host may not make is counted (R8, R181, R182). -/
def State.hostWrite (s : State) (host : Bool) (o width value : Nat) : State :=
  if !s.sees host o || width = 0 || o % width ≠ 0 then s.violate host false true o else s.writeReg host o width value

/-- A host's access to BAR0 or its port's configuration space (R178, R182, R380). -/
def execRegisterWrite (host : Bool) (a : HostAccess) (s : State) : Out :=
  match a with
  | .config item =>
    if !(s.hostPort host).up then .next s
    else .next { s with host := { s.host with readOut := [(s.configRead host item, false)] } }
  | .bar2Size code => .next (s.setHostPort host { s.hostPort host with bar2Gib := 64 * 2 ^ code.val })
  | .msi bm en mask =>
    .next ((List.range 256).foldl (fun s v => s.sendPending host v)
      (s.setHostPort host { s.hostPort host with busMaster := bm, msixEnable := en, msixMask := mask }))
  | .read o width =>
    if !(s.hostPort host).up then .next s else .next (s.atBar host (.read o width) fun s => s.hostRead host o width)
  | .write o width value =>
    if !(s.hostPort host).up then .next s else .next (s.atBar host (.write o width value) fun s => s.hostWrite host o width value)

/-- The driver writes HQ_HEAD (R161, R182, R380). -/
def execHqHeadWrite (host : Bool) (part : PartNo) (slot : Fin 16) (value : BitVec 32) (s : State) : Out :=
  .next (s.atBar host (.hqHead part slot value) fun s => s.writeHqHead host part slot value)

/-- An access that a port held while the package slept. -/
def State.serveBar (s : State) (host : Bool) : BarAccess → State
  | .read o width => s.hostRead host o width
  | .write o width value => s.hostWrite host o width value
  | .bar2Read o len => s.hostAccess host (.bar2Read o len)
  | .bar2Write o bytes ep => s.hostAccess host (.bar2Write o bytes ep)
  | .post mb => s.hostAccess host (.post mb)
  | .free mb => s.hostAccess host (.free mb)
  | .evtHead log value => s.writeEvtCtrl host log value
  | .hqHead part slot value => s.writeHqHead host part slot value

/-- Once the package is awake, the accesses that a port held are performed in the order received (R380, R382; log 2). -/
def State.serveResting (s : State) (host : Bool) : State :=
  let l := (s.hostPort host).resting
  if s.asleep || l.isEmpty then s
  else l.foldl (fun s x => s.serveBar host x) (s.setHostPort host { s.hostPort host with resting := [] })

/-! ## Commands -/

/-- NOP (R195). -/
def execNopCommand (mb : MbId) (s : State) : Out := s.command mb 1 fun _ => s.completeCmd mb 0 0

/-- QUERY: firmware version, logical clusters, C_p in GiB, licence bits (R195, R399). In a chip mailbox the
spec states no clusters and no capacity: free values (log 8). -/
def execQuery (mb : MbId) (s : State) : Out :=
  s.command mb 2 fun _ =>
    let q := s.part mb.part
    let n := if mb.chip then Config.freeNat s.freeCtr else q.clusters.length
    let c := if mb.chip then Config.freeNat (s.freeCtr + 1) else q.capacity.capacityGib.toNat
    let detail : BitVec 384 := packFields [(0, 16, s.mgmt.fw.major.toNat), (16, 16, s.mgmt.fw.minor.toNat), (32, 32, n), (64, 32, c),
      (96, 5, s.licence.granted.toNat)]
    (if mb.chip then s.bump.bump else s).completeCmd mb 0 detail.toNat

/-- DMA_RESUME: firmware writes RESUME to the named channels; one that is not stopped or failed gives 0x0103
(R176, R195). -/
def execDmaResume (mb : MbId) (s : State) : Out :=
  s.command mb 0x30 fun m =>
    let cl := s.cluster mb.part (m.arg 8 0 5)
    let chs := (List.finRange 16).filter fun c => (m.arg 0xC 0 16).testBit c.val
    if chs.any fun c => !((s.chan cl c).state == 2 || (s.chan cl c).state == 3) then s.completeCmd mb 0x0103 0
    else (chs.foldl (fun s c => s.resumeChan cl c) s).completeCmd mb 0 0

/-- DMA_IRQ_BIND: bind the channel's vector and write IRQ_AT (R172). -/
def execDmaIrqBind (mb : MbId) (s : State) : Out :=
  s.command mb 0x31 fun m =>
    let cl := s.cluster mb.part (m.arg 8 0 5)
    let ch : Fin 16 := toFin 16 (m.arg 9 0 4)
    let c := s.chan cl ch
    (s.setChan cl ch { c with irqVector := some (BitVec.ofNat 8 (m.arg 0xA 0 8)),
                              count := { c.count with irqAt := BitVec.ofNat 32 (m.arg 0xC 0 32) } }).completeCmd mb 0 0

/-- Insert by a key. -/
def insertBy {α : Type} (key : α → Nat) (x : α) : List α → List α
  | [] => [x]
  | y :: t => if key x ≤ key y then x :: y :: t else y :: insertBy key x t

/-- Sort by a key. -/
def sortBy {α : Type} (key : α → Nat) (l : List α) : List α := l.foldr (insertBy key) []

/-- The entries of the journal, oldest first (R201, R206). -/
def State.journalEntries (s : State) : List JEntry :=
  sortBy (fun e => (e.seq - s.host.lastSeq - 1).toNat) ((s.host.journal.map (·.2)).filter fun e => e.state != 0)

/-- Whether JOURNAL_READ of a mailbox copies an entry (R206). -/
def JEntry.shownTo (e : JEntry) (mb : MbId) (port : Bool) : Bool :=
  mb.chip || (!e.chip && e.part == BitVec.ofNat 2 mb.part.val) || (e.chip && e.port == port)

/-- JOURNAL_READ: copy entries in ascending SEQ into the buffer (R195, R206). -/
def execJournalRead (mb : MbId) (s : State) : Out :=
  s.command mb 0x40 fun m =>
    let p : PartNo := if mb.chip then toFin 4 (m.arg 0x20 0 2) else mb.part
    let first := BitVec.ofNat 48 (m.arg 8 0 48)
    let all := s.journalEntries
    let es := (all.filter fun e => e.shownTo mb m.port && decide ((e.seq - first).toNat < 2 ^ 47)).take (m.arg 0x10 0 13)
    let oldest := match all with
      | [] => (0 : BitVec 48)
      | e :: _ => e.seq
    let a := m.arg 0x18 0 64
    let s1 := s.stackWrite p a ((es.map fun e => bytesOfNat 64 e.word.toNat).flatten) false
    let detail : BitVec 384 := packFields [(0, 13, es.length), (16, 1, if (oldest - first).toNat < 2 ^ 47 ∧ oldest ≠ first then 1 else 0),
      (64, 48, s.host.lastSeq.toNat), (128, 48, oldest.toNat)]
    s1.completeCmd mb 0 detail.toNat

/-- ENERGY_READ: copy the held final records of a stream, in job order (R239). -/
def execEnergyRead (mb : MbId) (s : State) : Out :=
  s.command mb 0x60 fun m =>
    let p := mb.part
    let seq := BitVec.ofNat 48 (m.arg 8 0 48)
    let rs := (s.part p).records.filter fun r => r.seq == seq
    let a := m.arg 0x10 0 64
    if !rs.isEmpty && !s.rangeOk p a (64 * rs.length) then s.completeCmd mb 0x0102 0
    else
      let s1 := s.stackWrite p a ((rs.map EnergyRec.bytes).flatten) false
      let detail : BitVec 384 := packFields [(0, 16, rs.length), (16, 16, Table.get 0 (s.part p).lost seq.toNat)]
      s1.completeCmd mb 0 detail.toNat

/-- DUMP_RELEASE: DUMP_GEN advances and every slot is empty (R131, R416, R431). -/
def execDumpRelease (mb : MbId) (s : State) : Out :=
  s.command mb 0x51 fun _ =>
    let q := s.part mb.part
    if q.dump.isSome then s.completeCmd mb 0x0103 0
    else if !q.dumpHeld then s.completeCmd mb 1 0
    else if q.dumpSweep.isSome then s
    else ((s.updPart mb.part fun q => { q with dumpHeld := false, rcv := { q.rcv with dumpSlots := 0 } }).advanceDumpGen
      mb.part).completeCmd mb 0 0

/-! ## Strata -/

/-- Two ranges overlap. -/
def rangesMeet (a b : Nat × Nat) : Bool := decide (0 < a.2) && decide (0 < b.2) && decide (a.1 < b.1 + b.2) && decide (b.1 < a.1 + a.2)

/-- No two of some ranges overlap. -/
def apart : List (Nat × Nat) → Bool
  | [] => true
  | x :: t => t.all (fun y => !rangesMeet x y) && apart t

/-- The header bits that R226 names. -/
def headerFields : List (Nat × Nat × Nat) :=
  [(0, 0, 32), (4, 0, 8), (8, 0, 6), (8, 8, 6), (0xC, 0, 3), (0x10, 0, 40), (0x18, 0, 32), (0x1C, 0, 16), (0x20, 0, 40),
   (0x28, 0, 40), (0x30, 0, 16), (0x38, 0, 40), (0x40, 0, 40), (0x48, 0, 40), (0x50, 0, 40), (0x58, 0, 40),
   (0x60, 0, 256), (0x80, 0, 512)]

/-- The header's own fields are as laid down (R226, R228). -/
def Stratum.headerOk (t : Stratum) : Bool :=
  let used := (headerFields.map fun f => t.field f.1 f.2.1 f.2.2 * 2 ^ (8 * f.1 + f.2.1)).foldl (· + ·) 0
  let ps := t.persist
  t.field 0 0 32 == 0x41525453 && t.field 4 0 8 == 1 && used == t.header.toNat
    && decide (1 ≤ t.clusters) && decide (t.clusters ≤ 32) && decide (1 ≤ t.coresPer) && decide (t.coresPer ≤ 32)
    && decide (1 ≤ t.field 0x1C 0 16) && decide (t.field 0x1C 0 16 ≤ 4096) && decide (t.field 0x30 0 16 ≤ 8192)
    && t.field 0x58 0 12 == 0
    && ps.all (fun x => x.1 % 64 == 0 && x.2 % 64 == 0 && decide (x.1 + x.2 ≤ 0x200000))
    && apart ps && decide ((ps.map (·.2)).foldl (· + ·) 0 ≤ 262144)
    && (List.range 8).all (fun n => t.field (0x80 + 8 * n) 56 2 != 3 && t.field (0x80 + 8 * n) 60 4 == 0)

/-- A segment table entry obeys R226. -/
def Stratum.segOk (t : Stratum) (w : BitVec 128) : Bool :=
  let off := bitsAt w.toNat 0 32
  let len := bitsAt w.toNat 32 32
  let entry := bitsAt w.toNat 64 32
  off % 64 == 0 && decide (off + len ≤ t.field 0x18 0 32) && entry % 4 == 0 && decide (entry < len) && bitsAt w.toNat 96 32 == 0

/-- A queue layout entry obeys R227 and R146, for the stratum's shape (R228). -/
def State.entryOk (s : State) (p : PartNo) (t : Stratum) (e : BitVec 256) : Bool :=
  let k := qField e 0 0 10
  let pages := qField e 8 40 15
  qField e 4 0 32 == 0 && qField e 8 0 12 == 0 && qField e 8 55 9 == 0 && qField e 0x10 29 3 == 0 && qField e 0x14 29 3 == 0
    && qField e 0x18 0 64 == 0 && decide (k / 32 < t.clusters) && decide (k % 32 < t.coresPer) && decide (pages ≤ 16384)
    && !(qField e 0 18 1 == 1 && pages == 0)
    && (pages == 0 || s.rangeOk p (qField e 8 12 28 * 4096) (pages * 4096))

/-- The screes of a set of a stratum's queue layout. -/
def Stratum.screes (t : Stratum) (set_ : Nat) : List (Nat × Nat) :=
  (t.queues.filter fun e => qField e 0 13 4 == set_ && qField e 0 17 1 == 1).map fun e => (qField e 8 12 28 * 4096, qField e 8 40 15 * 4096)

/-- The two range checks of R228: at or above C_p gives 0x0104, in the dump area 0x0102. -/
def State.rangeCheck (s : State) (p : PartNo) (a n : Nat) : Option Code :=
  if n = 0 then none
  else if a + n > s.capacity p then some 0x0104 else if a < 0x10000000 then some 0x0102 else none

/-- The first code among some checks. -/
def firstCode : List (Option Code) → Option Code
  | [] => none
  | some c :: _ => some c
  | none :: t => firstCode t

/-- Read a part of a stratum record, its range checked first (R228, step 2). -/
def State.readPart (s : State) (p : PartNo) (a n : Nat) : Option Code :=
  match s.rangeCheck p a n with
  | some c => some c
  | none => if s.stackPoisoned p a n then some 0x0201 else none

/-- The record read from stacked memory. -/
def State.readStratum (s : State) (p : PartNo) (a len : Nat) : Stratum :=
  let h : Stratum := { header := BitVec.ofNat 2048 (s.stackNat p a 256), segs := [], queues := [], addr := a, len := len }
  { h with segs := (s.records p (h.field 0x20 0 40) 16 (h.field 0x1C 0 16)).map (BitVec.ofNat 128),
           queues := (s.records p (h.field 0x28 0 40) 32 (h.field 0x30 0 16)).map (BitVec.ofNat 256) }

/-- The owner mismatches that firmware's reads of a stratum record meet (R27, R228). -/
def State.meetStratum (s : State) (p : PartNo) (a len : Nat) : State :=
  let t := s.readStratum p a len
  ([(a, len), (t.field 0x20 0 40, 16 * t.field 0x1C 0 16), (t.field 0x28 0 40, 32 * t.field 0x30 0 16)].takeWhile
    fun r => (s.rangeCheck p r.1 r.2).isNone).foldl (fun s r => s.meetOwners p r.1 r.2) s

/-- Bytes of a stratum's save area (R231). -/
def Stratum.saveSize (t : Stratum) : Nat := t.clusters * t.coresPer * t.slotSize

/-- R228's checks in its order. -/
def State.stratumCheck (s : State) (p : PartNo) (n a len : Nat) : Except Code Stratum :=
  if (s.stratum p n).isSome then .error 0x0103
  else if n > 7 ∧ s.licence.granted.getLsbD 1 = false then .error 0x0105
  else match firstCode [s.rangeCheck p a len, if len < 256 then some 0x0102 else none, s.readPart p a 256] with
    | some c => .error c
    | none =>
      let t := s.readStratum p a len
      match firstCode [s.readPart p (t.field 0x20 0 40) (16 * t.field 0x1C 0 16),
          s.readPart p (t.field 0x28 0 40) (32 * t.field 0x30 0 16), s.readPart p (a + 256) (len - 256)] with
      | some c => .error c
      | none =>
        let rs := [(t.field 0x10 0 40, t.field 0x18 0 32), (t.field 0x38 0 40, t.field 0x40 0 40),
          (t.field 0x48 0 40, t.field 0x50 0 40), (t.field 0x58 0 40, t.saveSize)]
        let segs := ((s.part p).strata.map fun x => x.2.segs.length).foldl (· + ·) t.segs.length
        let qs := ((s.part p).strata.map fun x => x.2.queues.length).foldl (· + ·) t.queues.length
        if t.field 0xC 1 1 = 1 ∧ s.licence.granted.getLsbD 3 = false then .error 0x0105
        else if t.clusters ≠ (s.part p).clusters.length then .error 0x0104
        else if rs.any fun r => s.rangeCheck p r.1 r.2 == some 0x0104 then .error 0x0104
        else if rs.any (fun r => (s.rangeCheck p r.1 r.2).isSome) || !t.headerOk || !t.segs.all t.segOk || !t.queues.all (s.entryOk p t)
            || !(List.range 16).all fun i => apart (t.screes i) then .error 0x0102
        else if segs > 16384 ∨ qs > 32768 then .error 0x0106
        else .ok t

/-- STRATUM_REGISTER: check the record and make the stratum resident (R225 to R228). -/
def execStratumRegister (mb : MbId) (s : State) : Out :=
  s.command mb 0x20 fun m =>
    let n := m.arg 8 0 6
    let s1 := if (s.stratum mb.part n).isSome then s else s.meetStratum mb.part (m.arg 0x10 0 64) (m.arg 0x18 0 32)
    match s.stratumCheck mb.part n (m.arg 0x10 0 64) (m.arg 0x18 0 32) with
    | .error c => s1.completeCmd mb c 0
    | .ok t => (s1.updPart mb.part fun q => { q with strata := q.strata ++ [(n, t)] }).completeCmd mb 0 0

/-- STRATUM_DROP: residence ends, and a preparation with it (R229). -/
def execStratumDrop (mb : MbId) (s : State) : Out :=
  s.command mb 0x21 fun m =>
    let n := m.arg 8 0 6
    let q := s.part mb.part
    let current := match q.stream with
      | none => false
      | some x => match x.job with
        | none => false
        | some j => j.stratum.toNat == n
    if (s.stratum mb.part n).isNone then s.completeCmd mb 1 0
    else if current then s.completeCmd mb 0x0103 0
    else (s.updPart mb.part fun q => { q with
      strata := q.strata.filter fun e => e.1 != n,
      prepared := if q.prepared.stratum.toNat = n then {} else q.prepared,
      prep := if q.prepared.stratum.toNat = n then none else q.prep }).completeCmd mb 0 0

end Sys2Proof.Machine
end

