-- ==== Sys2Proof/Machine/PowerEvents.lean ====
section
/-! DEFINITION. Events of power and thermal control (R333 to R365, R429, R483). -/

namespace Sys2Proof.Machine

/-! ## The estimate and its calibration -/

/-- What a partition draws in a window: compute, memory and fabric picojoules (R338). -/
def State.windowOf (s : State) (a : Activity) (p : PartNo) : Nat × Nat × Nat :=
  let k := s.power.estimate.k.toNat
  let cl := (s.part p).clusters
  (sumNat (cl.map fun c => a.engine.getD c 0 + a.other.getD c 0) * k / 1024, a.memory.getD p.val 0 * k / 1024,
   a.fabric.getD p.val 0 * k / 1024)

/-- Divide a window's estimate among the accounts; leakage and shared terms go to the running partitions in
proportion to what each caused (R237, R338). -/
def State.account (s : State) (a : Activity) : State :=
  let k := s.power.estimate.k.toNat
  let shared := (sumNat a.leak + a.shared) * k / 1024
  let own := fun p => let w := s.windowOf a p
    w.1 + w.2.1 + w.2.2
  let running := (List.finRange 4).filter fun p => (s.part p).state == 3
  let all := sumNat (running.map own)
  (List.finRange 4).foldl (fun t p =>
    let w := s.windowOf a p
    let share := if all = 0 || !running.contains p then 0 else shared * own p / all
    t.updPart p fun q => { q with energy := {
      compute := q.energy.compute + w.1, memory := q.energy.memory + w.2.1, fabric := q.energy.fabric + w.2.2,
      total := q.energy.total + own p + share } }) s

/-- A pass: the first one after a stall ends it, the limits are released and the settings that waited apply,
as does a voltage (R340, R365). -/
def State.pass (s : State) : State :=
  let s1 := (s.updPower fun w => { w with stalled := false, stallHot := 0, settings := [] }).fastPass
  s.power.settings.foldl State.applySetting (if s.power.voltDue then s1.requestVolt else s1)

/-- The estimate of a 4 µs window is formed and charged, and L_POWER follows (R335, R336, R338, R340, R365,
R368). -/
def execPowerEstimatePass (counts : Counts) (s : State) : Out :=
  let act := s.terms counts
  if !s.clocks.clk.cpLock || s.host.service != 0 || s.clocks.pkg != .run then .next s
  else
    let s1 := s.updPower fun w =>
      let pj := activityRaw act * w.estimate.k.toNat / 1024
      let w1 := { w with
        act := act, actLevels := w.clu.map CluPower.level, actFreq := w.freq.toNat, actVolt := w.volt.toNat,
        estSum := w.estSum + pj, estCount := w.estCount + 1,
        estimate := { w.estimate with est := BitVec.ofNat 16 (min 65535 (pj / 1000000)) } }
      let under := since w.underSince (decide (w1.estW ≤ w1.pEffW)) s.time
      { w1 with underSince := under,
                status := { w1.status with capUnreachable := w1.status.capUnreachable && !s.lasted under 1000000 } }
    .next ((s1.account act).pass).setBinding

/-- The measured power of a millisecond corrects K; without telemetry K is held (R337, R239). `measured` is
the VDD_CORE power in 0.25 W. -/
def execCalibrationPass (measured : Option Nat) (s : State) : Out :=
  if !s.pwrLive then .next s
  else
    let w := s.power
    let clear := fun w : Power => { w with estSum := 0, estCount := 0, rails := none }
    match measured, w.rails with
    | some core, some rails =>
      let m := core + rails
      let k := w.estimate.k.toNat
      let new := if w.estSum = 0 then k else (7 * k + k * m * 1000000 * w.estCount / w.estSum) / 8
      .next (s.updPower fun w => clear { w with
        estimate := { w.estimate with measured := BitVec.ofNat 16 (min 65535 m), k := BitVec.ofNat 12 (max 820 (min 1280 new)) },
        status := { w.status with calibrating := true } })
    | _, _ =>
      let s1 := s.updPower fun w => clear { w with status := { w.status with calibrating := false } }
      .next ((List.finRange 4).foldl (fun t p =>
        t.updStream p fun x => if x.job.isSome then x.updJob fun j => { j with calibrated := false } else x) s1)

/-- The estimate has exceeded P_eff for 1 ms with L_POWER 1 and STEP 0 (R335). -/
def execCapUnreachable (s : State) : Out :=
  let w := s.power
  if !s.pwrLive || w.status.lPower != 1 || w.status.step != 0 || w.status.capUnreachable || decide (w.estW ≤ w.pEffW) then .next s
  else
    let s1 := s.updPower fun w => { w with status := { w.status with capUnreachable := true }, underSince := none }
    if w.capReport.isSome && !s.lasted w.capReport 1000000000 then .next s1
    else .next ((s1.updPower fun w => { w with capReport := some s.time }).eventChip 0x0503 0 (w.pEff / 100 + 4096))

/-- The slow loop's millisecond (R345). -/
def execSlowLoop (s : State) : Out := .next s.slowLoop

/-! ## Voltage and frequency steps -/

/-- A step is over: STEP, VF_BUSY, and the slow loop that waited for it (R346, R366). -/
def State.endStep (s : State) (goal : BitVec 4) : State :=
  let s1 := (s.updPower fun w => { w with
    move := none, redo := false,
    status := { w.status with step := goal, vfBusy := goal != w.status.target } }).checkHeld
  if s.power.redo then s1.slowLoop else s1

/-- A step toward TARGET begins: down, ACLK falls and the lower voltage is requested; up, the higher voltage
is requested. After VR_FAULT only frequency falls (R343, R346, R347). -/
def execVfStep (s : State) : Out :=
  let w := s.power
  let st := w.status
  if !s.pwrLive || w.move.isSome || w.trim.isSome || st.step = st.target then .next s
  else if st.target < st.step then
    let goal := st.step - 1
    let s1 := s.updPower fun w => { w with freq := w.freqOf goal, status := { w.status with vfBusy := true } }
    if st.vrFault then .next (s1.endStep goal)
    else .next (s1.updPower fun w => { w with volt := w.vreq goal, move := some { up := false, goal := goal } })
  else if st.vrFault || st.step ≥ w.config.maxStep then .next s
  else
    let goal := st.step + 1
    .next (s.updPower fun w => { w with
      volt := w.vreq goal, move := some { up := true, goal := goal }, status := { w.status with vfBusy := true } })

/-- The VR reports completion: ACLK rises on a step up, and the step is over (R346). -/
def execVrComplete (s : State) : Out :=
  match s.power.move with
  | none => .next s
  | some m => .next ((if m.up then s.updPower fun w => { w with freq := w.freqOf m.goal } else s).endStep m.goal)

/-- A VR request did not complete in 40 µs: it is repeated once, then VR_FAULT is set and ACLK held at the lower
frequency (R347). -/
def execVrTimeout (s : State) : Out :=
  match s.power.move with
  | none => .next s
  | some m =>
    if !m.repeated then .next (s.updPower fun w => { w with move := some { m with repeated := true } })
    else
      let goal := if m.up then s.power.status.step else m.goal
      let s1 := s.updPower fun w => { w with status := { w.status with vrFault := true } }
      .next ((s1.endStep goal).updPower fun w => { w with status := { w.status with vfBusy := false } })

/-- A cluster's supply falls below V_req − DROOP_MV: its ACLK is stretched and the event counted (R351). -/
def execDroopDetect (cluster : Fin 32) (s : State) : Out :=
  if s.clocks.pkg != .run || s.boot.maps[cluster].retired then .next s
  else .next (s.updPower fun w => { w with
    stretched := setBit w.stretched cluster.val true,
    droops := (w.droops.filter fun d => decide ((s.time - d.1).toNat < 86400000000000)) ++ [(s.time, cluster)],
    clu := w.clu.set cluster { w.clu[cluster] with droops := satInc w.clu[cluster].droops } })

/-- Stretching ends (R351). -/
def execDroopStretchEnd (cluster : Fin 32) (s : State) : Out :=
  .next (s.updPower fun w => { w with stretched := setBit w.stretched cluster.val false })

/-! ## Hints -/

/-- HINT_HEAVY: the power controller prepares voltage or arms clusters (R216, R350). -/
def execHintHeavy (part : PartNo) (op : Nat) (s : State) : Out :=
  .next (s.startOp part op 7 fun s _ w =>
    let mask := opField w 0x14 0 32
    let n := (s.part part).clusters.length
    let named := ((List.range n).filter fun l => mask == 0 || mask.testBit l).map (s.cluster part)
    s.takeHint part (opField w 0x10 0 7) (opField w 0x12 0 16) named)

/-- A held preparation ends at t + 1 ms after its hint (R350); while the controller stalls, voltage and step stay (R365). -/
def execHintExpiry (part : PartNo) (s : State) : Out :=
  if (s.part part).hint.isNone || s.power.stalled then .next s else .next (s.putHint part none)

/-! ## Trims -/

/-- An idle window: every partition in PS1 or deeper, or held in reset (R353). -/
def State.idleWindow (s : State) : Bool :=
  s.clocks.pkg == .run && (List.finRange 4).all fun p =>
    !s.partExists p || (s.part p).state == 0 || bitsAt s.clocks.ps.partState.toNat (2 * p.val) 2 != 0

/-- A due trim begins in an idle window: the validation trim 10 minutes after bedrock power-up, a periodic one
once HOURS_SINCE_TRIM is 24 (R353). -/
def execTrimStart (s : State) : Out :=
  let w := s.power
  if !s.pwrLive || w.trim.isSome || !s.idleWindow || w.status.hintHeld || w.move.isSome then .next s
  else if !w.validated then
    if w.psSeconds < 600 then .next s else .next (s.updPower fun w => { w with trim := some true })
  else if w.guard.hoursSinceTrim < 24 then .next s
  else .next (s.updPower fun w => { w with trim := some false })

/-- Some cluster counted more than 10,000 droop events in the latest 24 hours (R354). -/
def State.droopy (s : State) : Bool :=
  let recent := s.power.droops.filter fun d => decide ((s.time - d.1).toNat < 86400000000000)
  (List.finRange 32).any fun c => decide (10000 < (recent.filter fun d => d.2 == c).length)

/-- A trim ends: aborted, or with each cluster's least passing voltage at each step, of which the highest counts, rounded up to
5 mV (R352 to R354). -/
def execTrimEnd (measured : Option (List (List Nat))) (s : State) : Out :=
  match s.power.trim, measured with
  | none, _ => .next s
  | some _, none => .next (s.updPower fun w => { w with trim := none })
  | some validation, some ms =>
    let w := s.power
    let old := w.vmin
    let new := (List.range 16).map fun i => match (ms.filterMap fun (row : List Nat) => row[i]?).max? with
      | some m => BitVec.ofNat 10 ((m + 4) / 5 * 5)
      | none => old.getD i 0
    let rose := (List.range 16).any fun i => decide ((old.getD i 0).toNat + 10 < (new.getD i 0).toNat)
    let g := w.guard.guardMv.toNat
    let g1 := if validation then s.settings.guard.toNat
      else if rose || s.droopy then min 45 (g + 10) else max 15 (g - 5)
    let s1 := (s.updPower fun w => { w with
      trim := none, validated := true, vmin := new, hourSeconds := 0,
      guard := { w.guard with guardMv := BitVec.ofNat 6 g1, hoursSinceTrim := 0 } }).setVreq
    .next (s1.writeSettings fun x => { x with vmin := some new, guard := BitVec.ofNat 6 g1, hours := 0 }).requestVolt

/-- A further 24 hours without a successful trim after the first 72: G rises by 5 mV; the voltage follows at the next step
change, or at once in an idle package (R354). -/
def execGuardBandRise (s : State) : Out :=
  let w := s.power
  if w.guard.hoursSinceTrim < 96 then .next s
  else
    let s1 := (s.updPower fun w => { w with
      guard := { w.guard with guardMv := BitVec.ofNat 6 (min 45 (w.guard.guardMv.toNat + 5)) } }).setVreq
    .next (if s.idleWindow && s.pwrLive && w.move.isNone then s1.requestVolt else s1)

/-! ## Temperatures -/

/-- A junction sensor is read; while the controller stalls, 100.0 °C or more forces its cluster to level 1 (R355
to R357, R365). -/
def execJunctionSensorRead (cluster : Fin 32) (sensor : Fin 8) (reading : Temp) (s : State) : Out :=
  if s.clocks.pkg != .run || s.boot.maps[cluster].retired then .next s
  else
    let s1 := (s.updPower fun w => { w with sensors := Table.set none w.sensors (cluster.val * 8 + sensor.val) reading }).showTemps
    let hot := match reading with
      | some t => decide (400 ≤ t)
      | none => false
    if s.power.stalled && hot then .next ((s1.updPower fun w => { w with stallHot := setBit w.stallHot cluster.val true }).setLevels)
    else .next s1

/-- Twice the median of some readings; none where there is none. -/
def median2 (l : List Int) : Option Int :=
  let o := sortBy (fun t : Int => (t + 80).toNat) l
  match o[o.length / 2]?, o[(o.length - 1) / 2]? with
  | some a, some b => some (a + b)
  | _, _ => none

/-- A pair of sensors has disagreed by more than 8.0 °C for 100 ms: the one farther from the median of the
cluster's other credible sensors is faulty (R356). -/
def execSensorFaulty (cluster : Fin 32) (pair : Fin 4) (s : State) : Out :=
  let w := s.power
  let a := 2 * pair.val
  if s.boot.maps[cluster].retired then .next s
  else match w.credible cluster a, w.credible cluster (a + 1) with
  | some x, some y =>
    let others := ((List.range 8).filter fun n => n / 2 != pair.val).filterMap (w.credible cluster)
    match median2 others with
    | none => .next s
    | some m =>
      let dx := (2 * x - m).natAbs
      let dy := (2 * y - m).natAbs
      if (x - y).natAbs ≤ 32 ∨ dx = dy then .next s
      else
        let n := if dx > dy then a else a + 1
        let s1 := s.updPower fun w => { w with
          clu := w.clu.set cluster { w.clu[cluster] with faulty := setBit w.clu[cluster].faulty n true },
          thm := { w.thm with faulty := w.thm.faulty + 1 } }
        .next ((s1.showTemps).eventChip 0x0506 0 (cluster.val * 8 + n))
  | _, _ => .next s

/-- Every 100 µs the thermal levels follow the control readings (R341, R357, R358, R483). -/
def execThermalPass (s : State) : Out :=
  if !s.pwrLive then .next s
  else
    let s1 := s.workClusters.foldl (fun t c =>
      let r := s.controlReading c
      let old := s.power.clu[c].thermalLevel.toNat
      let new := if r > 380 then max 1 (old - (r - 380).toNat) else if r < 376 then min 64 (old + 1) else old
      t.updPower fun w => { w with
        clu := w.clu.set c { w.clu[c] with thermalLevel := BitVec.ofNat 7 new },
        thmOneSince := w.thmOneSince.set c (since w.thmOneSince[c] (new == 1) s.time),
        thmLowSince := w.thmLowSince.set c (since w.thmLowSince[c] (decide (new < 32)) s.time) }) s.noteCause
    .next ((s1.showTemps).setLevels).setBinding

/-- A memory controller limits its stack's bandwidth (R359). -/
def execStackBwPass (stack : Fin 12) (s : State) : Out :=
  if s.hbm.mcs[stack].status.state != 2 then .next s else .next (s.setBw stack true)

/-- Whether a stack reads 105.0 °C or more (R359). -/
def State.stackHot (s : State) (m : Fin 12) : Bool := s.hbm.mcs[m].temp.valid && decide (420 ≤ s.hbm.mcs[m].temp.temp.toNat)

/-- A stack has read 105.0 °C or more for 1 ms (R359). -/
def execCoolantEmergency (stack : Fin 12) (s : State) : Out :=
  if !s.stackHot stack || s.power.hotStacks.getLsbD stack.val then .next s
  else .next (((s.updPower fun w => { w with hotStacks := setBit w.hotStacks stack.val true }).emergency).eventChip 0x0502 0 (256 + stack.val))

/-- Every second SUSTAIN_W and LOSS_RATE are computed, and the hours since the trim count. The filter of R_TH
and the fit of LOSS_RATE are not stated: free values (R352, R354, R360, R361; log 8). -/
def execHeadroomPass (s : State) : Out :=
  if !s.pwrLive then .next s
  else
    let s1 := s.updPower fun w =>
      let secs := w.psSeconds + 1
      let ready := w.status.modelReady || decide (600 ≤ secs)
      let r : BitVec 16 := if ready then BitVec.ofNat 16 (Config.freeNat s.freeCtr) else w.headroom.rTh
      let hour := decide (3599 ≤ w.hourSeconds)
      { w with
        psSeconds := secs, hourSeconds := if hour then 0 else w.hourSeconds + 1,
        guard := { w.guard with hoursSinceTrim := if hour then satInc w.guard.hoursSinceTrim else w.guard.hoursSinceTrim },
        status := { w.status with modelReady := ready },
        headroom := { rTh := r, lossRate := BitVec.ofNat 16 (Config.freeNat (s.freeCtr + 1)),
                      sustainW := BitVec.ofNat 16 (min 65535 ((380 - w.inlet) * 250000 / r.toNat)) } }
    .next (s1.writeSettings fun x => { x with hours := s1.power.guard.hoursSinceTrim }).bump.bump

/-- No coolant message came for 5 s: the model assumes 45.0 °C (R360). -/
def execCoolantTimeout (s : State) : Out :=
  .next (s.updPower fun w => { w with thm := { w.thm with coolantValid := false } })

/-! ## Emergency inputs and the trip -/

/-- PWR_BRAKE acts, or no longer acts: BRAKE, the limits, the loops (R334, R349, R362, R366). -/
def State.setBrake (s : State) (on : Bool) : State :=
  let s1 := s.updPower fun w => { w with
    status := { w.status with brake := on, fixedHeld := w.status.fixedHeld && !on } }
  let s2 := (((if on then s1 else s1.releaseLimit).recap).setLevels).setYield
  if s.pwrLive then s2.fastPass.setBinding else s2

/-- POWER_BRAKE is reported, at most once per second (R362). -/
def State.reportBrake (s : State) : State :=
  if s.power.brakeReport.isSome && !s.lasted s.power.brakeReport 1000000000 then s
  else (s.updPower fun w => { w with brakeReport := some s.time }).eventChip 0x0505 0 0

/-- PWR_BRAKE is recognised asserted or released; an assertion that the package cannot meet yet is recorded (R334, R349, R362, R366,
R383, R401, R481). -/
def execPwrBrake (asserted : Bool) (s : State) : Out :=
  if s.power.brakePin == asserted then .next s
  else if !asserted then .next ((s.noteCause.updPower fun w => { w with brakePin := false }).setBrake false)
  else
    let s1 := s.updPower fun w => { w with brakePin := true }
    if s.pinsHeld then .next s1 else .next (s1.setBrake true).reportBrake

/-- COOL_ALERT acts: the emergency floor, reported (R349, R362). -/
def State.alertActs (s : State) : State :=
  ((s.updPower fun w => { w with status := { w.status with fixedHeld := false } }).emergency).eventChip 0x0502 0 0

/-- COOL_ALERT is recognised asserted, which brings the emergency floor, or is recorded while the package cannot meet it; or
released, which removes nothing by itself (R362, R383, R401, R481). -/
def execCoolAlert (asserted : Bool) (s : State) : Out :=
  if s.power.coolPin == asserted then .next s
  else
    let s1 := s.updPower fun w => { w with coolPin := asserted }
    if !asserted || s.pinsHeld then .next s1 else .next s1.alertActs

/-- PWR_BRAKE and COOL_ALERT act, if they are still asserted, once the package can meet them: from S3 of a start on, and at a wake
(R362, R383, R401, R481). -/
def State.pinsAct (s : State) : State :=
  let s1 := if s.power.brakePin then (s.setBrake true).reportBrake else s.recap
  if s.power.coolPin then s1.alertActs else s1

/-- 1 s after the release of COOL_ALERT, and of any hot stack, the emergency floor ends (R359, R362). -/
def execCoolAlertRelease (s : State) : Out :=
  let w := s.power
  let hot := (List.finRange 12).any fun m => w.hotStacks.getLsbD m.val && s.stackHot m
  if !w.status.cool || w.coolPin || hot then .next s
  else
    let s1 := s.noteCause.updPower fun w => { w with hotStacks := 0, status := { w.status with cool := false } }
    let s2 := (List.finRange 12).foldl (fun t m => t.setBw m false) s1
    .next (((s2.releaseLimit).setLevels).recap)

/-- The package trips: ACLK gated, THERM_TRIP_N, TRIPPED, streams ended with 0x0501, events, the stacks in
self-refresh; dumps, resets and a start in progress are abandoned (R363, R401, R429, R431). TRIPPED of before
stands. -/
def State.trip (s : State) (cause place : Nat) : State :=
  if s.power.status.tripped then s
  else
    let s1 := s.updPower fun w => { w with
      gated := true, status := { w.status with tripped := true, target := 0, fixedHeld := false } }
    let s2 := { s1 with rcv := { s1.rcv with safe := { s1.rcv.safe with
      tripCause := BitVec.ofNat 4 cause, tripWhere := BitVec.ofNat 4 place } } }
    let detail := cause + place * 16
    let s3 := (List.finRange 4).foldl (fun t p => t.failStream p 0x0501) s2
    let s4 := (List.finRange 4).foldl (fun t p => if t.partExists p then t.eventPart p 0x0501 detail else t) (s3.eventChip 0x0501 0 detail)
    let s5 := (List.finRange 12).foldl (fun t m => t.updMc m fun x =>
      if x.status.state = 2 then { x with status := { x.status with state := 3 } } else x) s4
    let s6 := (List.finRange 4).foldl (fun t p => t.updPart p fun q => { q with reset := none, dump := none }) s5
    { s6 with rcv := { s6.rcv with chip := none }, boot := { s6.boot with starting := false, startDue := false } }

/-- Two of three chains vote. -/
def twoVote (v : BitVec 3) : Bool := (v.getLsbD 0 && v.getLsbD 1) || (v.getLsbD 0 && v.getLsbD 2) || (v.getLsbD 1 && v.getLsbD 2)

/-- A field's safety chains are read: a chain votes at 110.0 °C or when it fails; two votes trip the package
(R363). -/
def execThermalTrip (field : Fin 4) (a b c : Reading) (s : State) : Out :=
  let rs := [a, b, c]
  let bits := fun f : Reading → Bool => (List.range 3).foldl (fun (v : BitVec 3) i => setBit v i (f (rs.getD i none))) 0
  let fault := bits Option.isNone
  let vote := bits fun r => match r with
    | none => true
    | some t => decide (440 ≤ t)
  let old := s.power.safety[field]
  let val := fun r : Reading => BitVec.ofNat 10 (min 1023 (r.getD 0))
  let new : ThmSafety := { chainA := val a, chainB := val b, chainC := val c, chainFault := fault, vote := vote }
  let s1 := s.updPower fun w => { w with safety := w.safety.set field new }
  let s2 := (List.range 3).foldl (fun t i =>
    if fault.getLsbD i && !old.chainFault.getLsbD i then t.eventChip 0x0506 0 (0x200 + field.val * 4 + i) else t) s1
  if !twoVote vote then .next s2
  else .next ((s2.updPower fun w => { w with thm := { w.thm with tripFields := setBit w.thm.tripFields field.val true } }).trip 0 field.val)

/-- The votes of an electrical monitor's chains; two trip the package. A chain whose self-check newly fails is reported, for each
monitor and rail; CHAIN_FAULT shows the chains that some monitor finds failed (R429, R432). -/
def execElectricalTrip (monitor : ElecMonitor) (votes faults : BitVec 3) (s : State) : Out :=
  let vote := votes ||| faults
  let num := match monitor with
    | .overcurrent => (1, 0)
    | .coreOv => (2, 0)
    | .railOv r => (3, r.val)
  let place : Fin 13 := toFin 13 (num.1 - 1 + num.2)
  let all := s.rcv.elecFaults.set place faults
  let safe := { s.rcv.safe with
    ocVote := if num.1 = 1 then vote else s.rcv.safe.ocVote,
    ovVote := if num.1 = 2 then vote else s.rcv.safe.ovVote,
    chainFault := all.foldl (· ||| ·) 0 }
  let s1 := { s with rcv := { s.rcv with safe := safe, elecFaults := all } }
  let s2 := (List.range 3).foldl (fun t i =>
    if faults.getLsbD i && !s.rcv.elecFaults[place].getLsbD i then
      t.eventChip 0x0506 0 (0x300 + i + num.1 * 4096 + num.2 * 65536)
    else t) s1
  if twoVote vote then .next (s2.trip num.1 num.2) else .next s2

/-! ## Thermal cycles and the stall -/

/-- Count a half-cycle of an amplitude in 0.25 °C: each second one in a bin adds one (R364). -/
def State.halfCycle (s : State) (f : Fin 4) (amp : Nat) : State :=
  if amp < 80 then s
  else
    let b := min 4 ((amp - 80) / 40)
    let tr := s.power.track[f]
    let odd := tr.odd.getLsbD b
    s.updPower fun w => { w with
      track := w.track.set f { tr with odd := setBit tr.odd b (!odd) },
      cycles := if odd then Table.upd 0 w.cycles (f.val * 5 + b) satInc else w.cycles }

/-- A sample of a field's highest control reading: turning points with a hysteresis of 5.0 °C (R364). -/
def State.cycleSample (s : State) (f : Fin 4) (t : Int) : State :=
  let tr := s.power.track[f]
  let put := fun (s : State) (x : CycleTrack) => s.updPower fun w => { w with track := w.track.set f x }
  match tr.turn, tr.rising with
  | none, _ => put s { tr with turn := some t, ext := t }
  | some u, none =>
    if t ≥ u + 20 then put s { tr with rising := some true, ext := t }
    else if t ≤ u - 20 then put s { tr with rising := some false, ext := t } else s
  | some u, some up =>
    if (up ∧ t > tr.ext) ∨ (!up ∧ t < tr.ext) then put s { tr with ext := t }
    else if (tr.ext - t).natAbs ≥ 20 then
      let s1 := s.halfCycle f (tr.ext - u).natAbs
      put s1 { s1.power.track[f] with turn := some tr.ext, ext := t, rising := some (!up) }
    else s

/-- Every 100 ms each field's highest control reading is sampled (R364). -/
def execThermalCycleSample (s : State) : Out :=
  if !s.pwrLive then .next s
  else .next ((List.finRange 4).foldl (fun t f =>
    match ((s.workClusters.filter fun c => c.val / 8 == f.val).map s.controlReading).max? with
    | none => t
    | some r => t.cycleSample f r) s)

/-- The counts are written to tray flash (R364). -/
def State.saveCycles (s : State) : State := s.writeSettings fun x => { x with cycles := s.power.cycles }

/-- The hourly write of the counts (R364). -/
def execCycleCountSave (s : State) : Out := if !s.pwrLive then .next s else .next s.saveCycles

/-- The power controller stalls: hardware holds and limits the levels (R365). -/
def State.stallPower (s : State) : State :=
  if s.power.stalled || s.clocks.pkg != .run then s
  else
    let hot := s.workClusters.foldl (fun (b : BitVec 32) c => setBit b c.val ((List.range 8).any fun n =>
      match Table.get none s.power.sensors (c.val * 8 + n) with
      | some t => decide ((400 : Int) ≤ t)
      | none => false)) 0
    let s1 := s.updPower fun w => { w with stalled := true, stallHot := hot }
    ({ s1 with mgmt := { s1.mgmt with noStall := 0 } }).setLevels

/-- No fast-loop pass has completed for 20 µs (R365). -/
def execPowerStall (s : State) : Out := .next s.stallPower

end Sys2Proof.Machine
end

