-- ==== Sys2Proof/Machine/ResetOps.lean ====
section
/-! DEFINITION. Resets of cores and partitions, core maps, capacity steps, full fills (R15 to R18, R29, R108,
R127 to R135, R140, R159, R193, R389 to R396, R407 to R413). -/

namespace Sys2Proof.Machine

/-! ## Core maps -/

/-- The good slots of a cluster in ascending order (R391 to R393). -/
def goodSlots (bad : BitVec 36) : List Nat := (List.range 36).filter fun i => !bad.getLsbD i

/-- The core map of a cluster: slots in order at a cold start, else every index keeps its good slot and the others
take the lowest free ones (R393). -/
def rebuildMap (cold : Bool) (old : List (BitVec 6)) (bad : BitVec 36) : List (BitVec 6) :=
  let good := goodSlots bad
  if cold || old.length != 32 then (good.take 32).map (BitVec.ofNat 6)
  else
    let kept := (old.map BitVec.toNat).filter good.contains
    let free := good.filter fun i => !kept.contains i
    (old.foldl (fun (a : List (BitVec 6) × List Nat) x =>
      if good.contains x.toNat then (a.1 ++ [x], a.2)
      else match a.2 with
        | [] => (a.1, [])
        | f :: t => (a.1 ++ [BitVec.ofNat 6 f], t)) ([], free)).1

/-- An entry of the field defect log for a core slot of a device-wide cluster (R390). -/
def slotEntry (cause c slot : Nat) : DefectEntry :=
  { kind := 1, cause := BitVec.ofNat 4 cause, field := BitVec.ofNat 2 (c / 8), cluster := BitVec.ofNat 3 (c % 8), slot := BitVec.ofNat 6 slot }

/-- An entry of the field defect log for a device-wide cluster (R390). -/
def clusterEntry (cause c : Nat) : DefectEntry :=
  { kind := 2, cause := BitVec.ofNat 4 cause, field := BitVec.ofNat 2 (c / 8), cluster := BitVec.ofNat 3 (c % 8) }

/-- Rebuild a cluster's map; a cluster that is newly retired is logged and reported (R393, R394). -/
def State.rebuildCluster (s : State) (cold start : Bool) (c : Fin 32) : State :=
  let bad := s.boot.bad[c]
  let known := s.fuses.retired.getLsbD c.val || s.boot.badClusters.getLsbD c.val
  let few := decide ((goodSlots bad).length < 32)
  let retired := known || few
  let m : CluMap := if retired then { bad := bad, retired := true }
    else { bad := bad, spares := BitVec.ofNat 3 ((goodSlots bad).length - 32) }
  let s1 := { s with boot := { s.boot with
    maps := s.boot.maps.set c m,
    coreMaps := s.boot.coreMaps.set c (if retired then [] else rebuildMap cold s.boot.coreMaps[c] bad),
    badClusters := if few then setBit s.boot.badClusters c.val true else s.boot.badClusters } }
  if few && !known then
    (s1.logDefect (clusterEntry (if start then 0 else 1) c.val)).eventChip 0x0706 0 c.val
  else s1

/-- The device-wide clusters of a partition that are not retired, in order (R15). -/
def State.liveClusters (s : State) (p : PartNo) : List Nat :=
  ((s.fields p).map fun f => ((List.range 8).map (8 * f + ·)).filter fun c => !(s.boot.maps[toFin 32 c]).retired).flatten

/-! ## Capacity -/

/-- r_p: GiB retired from a partition's fields (R108, R390). -/
def State.retiredOf (s : State) (p : PartNo) : Nat := sumNat ((s.fields p).map fun f => s.hbm.retiredGib.getD f 0)

/-- MEM_CAPACITY as a partition reset sets it (R108, R143). -/
def State.capacityOf (s : State) (p : PartNo) : MemCapacity :=
  { capacityGib := BitVec.ofNat 10 (179 * (s.fields p).length - s.retiredOf p), retiredGib := BitVec.ofNat 10 (s.retiredOf p),
    mode := s.memConfig.mode }

/-- Pool sizes after a change of the placement, and the retirements that waited for them (R117, R129). -/
def State.setPools (s : State) : State :=
  let pl := s.placement
  (List.finRange 12).foldl (fun s m =>
    let x := s.hbm.mcs[m]
    let total := stackPages0 - pl.stackPages m.val
    let n := total - x.spare.poolUsed.toNat
    let go := x.waiting.take n
    let rest := x.waiting.drop n
    let s1 := go.foldl (fun s pg => s.logDefect (pageEntry m pg)) s
    s1.updMc m fun x => { x with
      waiting := rest, copying := x.copying ++ go,
      status := { x.status with remapBusy := x.status.remapBusy || !go.isEmpty },
      spare := { x.spare with poolTotal := BitVec.ofNat 18 total, poolUsed := BitVec.ofNat 18 (x.spare.poolUsed.toNat + go.length),
                              exhausted := x.spare.exhausted && !rest.isEmpty } }) s

/-- Apply a pending capacity step at a partition reset (R129, R390, R197). -/
def State.applyStep (s : State) (p : PartNo) : State :=
  let n := (s.part p).capacity.pendingGib.toNat
  if n = 0 then s
  else
    let f := (s.part p).pendingStack / 3
    let all := s.memConfig.mode
    let s1 := { s with hbm := { s.hbm with retiredGib := listSet s.hbm.retiredGib f (s.hbm.retiredGib.getD f 0 + n) } }
    let s2 := s1.logDefect { kind := 4, cause := 2, field := BitVec.ofNat 2 f, value := BitVec.ofNat 32 n }
    let s3 := s2.setPools.updPart p fun q => { q with capacity := { q.capacity with pendingGib := 0 } }
    s3.eventPart p 0x0205 (if all then n + 4096 else n + f * 1024)

/-! ## Units of a partition -/

/-- Whether a table key of cores, or of queues with 8 keys a core, belongs to a partition. -/
def keyOf (p : PartNo) (per : Nat) (key : Nat) : Bool := key / (1024 * per) == p.val

/-- Free the reply slots of a partition's units: their responses are discarded (R29, R294). -/
def freeReplies (t : Table ReplySlot) (p : PartNo) : Table ReplySlot :=
  (t.map fun e => if e.1 / (4096 * 4096) = p.val ∧ e.2.use.isSome = true then (e.1, { gen := e.2.gen + 1, use := none }) else e).filter
    fun e => e.2 != ({} : ReplySlot)

/-- Reset a partition's cores, queues, engines and SRAM to their reset state (R140, R159, R176); `keep` keeps
DMA_CH_COUNT (R378). -/
def State.clearUnits (s : State) (p : PartNo) (keep : Bool) : State :=
  let cl := (s.part p).clusters.map (toFin 32)
  let s1 := { s with
    cores := s.cores.filter fun e => !keyOf p 1 e.1, qins := s.qins.filter fun e => !keyOf p 8 e.1,
    qouts := s.qouts.filter fun e => !keyOf p 8 e.1, reply := freeReplies s.reply p,
    words := s.words.filter fun w => w.1.dpart != BitVec.ofNat 2 p.val }
  let s2 := s1.zeroSram (p.val * 2 ^ 31) (2 ^ 31)
  let s3 := cl.foldl (fun s c => s.zeroSram (2 ^ 33 + c.val * 2 ^ 24) (2 ^ 24)) s2
  let s4 := s3.updPart p fun q => { q with hostQs := Vector.replicate 16 {} }
  cl.foldl (fun s c =>
    let chan : DmaChan → DmaChan := fun x => if keep then { count := x.count, irqVector := x.irqVector } else {}
    (s.updEng c fun e => { chans := e.chans.map chan }).updClu c fun u => { level := u.level }) s4

/-- The notices of R159 for a partition's queues, to peers outside it. -/
def State.noticePeers (s : State) (p : PartNo) : State :=
  let outside := fun x : QPeer => x.device != s.self || x.part != BitVec.ofNat 2 p.val
  let s1 := (s.qins.filter fun e => keyOf p 8 e.1 && e.2.cfg.enable && !e.2.st.flushed && outside e.2.src).foldl
    (fun s e => s.send (noticePkt s p e.2.src 0x0124 false)) s
  (s.qouts.filter fun e => keyOf p 8 e.1 && e.2.valid && outside e.2.dst).foldl
    (fun s e => s.send (noticePkt s p e.2.dst 0x0122 true)) s1

/-! ## Streams and mailboxes at a reset -/

/-- An open stream ends at a reset. One that is ending already, or that the reset's own cause ends, fails with its
code; else its command is abandoned. With `free` its mailbox becomes FREE without DONE (R193, R241, R408). -/
def State.killStream (s : State) (p : PartNo) (code : Option Code) (free : Bool) : State :=
  match (s.part p).stream with
  | none => s
  | some x0 =>
    let cause := match x0.ending with
      | some c => some c
      | none => match x0.failDue with
        | some c => some c
        | none => code
    let s1 := s.endJob p (cause.getD 0x0705)
    match (s1.part p).stream with
    | none => s1
    | some x =>
      let s2 := s1.updPart p fun q => { q with stream := none, hint := none }
      let result := match (x.jobs.map Job.status).find? (· != 0) with
        | some c => c
        | none => cause.getD 0x0705
      match cause with
      | some _ =>
        if free then (s2.finalEntry (s2.mailbox x.mb).seq (if isSuccess result then 3 else 4) result (x.detail result)).setMailbox x.mb {}
        else s2.completeCmd x.mb result (x.detail result)
      | none => s2.abandonCmd x.mb free

/-- What a reset does to mailboxes: ACCEPTED commands are abandoned but for those that asked for the reset;
with `free` every mailbox becomes FREE (R193). -/
def State.meetMailboxes (s : State) (mbs keep : List MbId) (free : Bool) : State :=
  mbs.foldl (fun s mb =>
    if keep.contains mb then s
    else if (s.mailbox mb).status.state = 2 then s.abandonCmd mb free
    else if free then s.setMailbox mb {} else s) s

/-! ## A partition reset -/

/-- What a partition's registers become at its reset (R10, R143, R163, R176, R197, R203, R239, R244, R332, R368). -/
def Part.afterReset (q : Part) : Part :=
  { state := q.state, dumpHeld := q.dumpHeld, clusters := q.clusters, bar2Base := q.bar2Base, lastSeq := q.lastSeq,
    capacity := q.capacity, pendingStack := q.pendingStack, gen := q.gen, sweep := q.sweep, dumpSweep := q.dumpSweep,
    genWait := q.genWait, dumpGenWait := q.dumpGenWait, poisonLog := q.poisonLog, sramCount := q.sramCount, rcv := q.rcv, records := q.records, lost := q.lost,
    reset := q.reset, held := q.held, dump := q.dump }

/-- Steps 1 and 2 of a partition reset, at the end of its dump: the stream ends, the cores halt, injection stops, the
peers are noticed, mailboxes meet the reset. What its interfaces have injected goes on to its destinations (R29, R159,
R193, R412). -/
def State.startDrain (s : State) (p : PartNo) (code : Option Code) (keep : List MbId) (free : Bool) : State :=
  let s1 := s.killStream p code free
  let s2 := s1.meetMailboxes (partMailboxes p) keep free
  let s3 := s2.updPart p fun q => { q with
    state := 1, hint := none, stream := none, queue := [], dump := none,
    reset := q.reset.map fun r => { r with draining := true } }
  let stopped := s3.cores.map fun e =>
    if keyOf p 1 e.1 && e.2.ctx.isSome then
      (e.1, { e.2 with ctrl := { e.2.ctrl with halt := true }, state := if e.2.state = 5 then 5 else 4, held := none })
    else e
  (({ s3 with cores := stopped, reply := freeReplies s3.reply p }.noticePeers p).putHint p none)

/-- Whether a stack that holds the partition's pages failed its start (R386, R396). -/
def State.stackLost (s : State) (p : PartNo) : Bool :=
  (s.fields p).any fun f => [3 * f, 3 * f + 1, 3 * f + 2].any fun m => s.hbm.mcs[toFin 12 m].status.failed

/-- Whether a partition of the layout can run work: every field of it has a cluster, and no stack of it failed (R18,
R386, R396). -/
def State.partRuns (s : State) (p : PartNo) : Bool :=
  s.partExists p && !s.stackLost p && (s.fields p).all fun f =>
    (List.range 8).any fun i => !(s.boot.maps[toFin 32 (8 * f + i)]).retired

/-- PS_STATUS.PART_STATE of a partition (R384). -/
def State.setPartState (s : State) (p : PartNo) (n : Nat) : State :=
  let old := s.clocks.ps.partState.toNat
  let new := old - bitsAt old (2 * p.val) 2 * 2 ^ (2 * p.val) + n * 2 ^ (2 * p.val)
  { s with clocks := { s.clocks with ps := { s.clocks.ps with partState := BitVec.ofNat 8 new } } }

/-- The partition leaves reset, or is held in reset when it cannot run; the commands that waited end (R18, R193, R396,
R412). -/
def State.leaveReset (s : State) (p : PartNo) : State :=
  let r := (s.part p).reset
  let runs := s.partRuns p && !(s.part p).held
  let s1 := (s.updPart p fun q => { q with state := if runs then 2 else 0, reset := none }).setPartState p (if runs then 0 else 3)
  match r with
  | none => s1
  | some r => r.mbs.foldl (fun s mb => s.completeCmd mb (if runs then 0 else 0x0106) 0) s1

/-- Step 3 of a partition reset after its generation advance: SRAM zeroed, core maps rebuilt, registers reset, a
pending capacity step applied, a new owner (R129, R140, R188, R393, R394, R412). -/
def State.wipePart (s : State) (p : PartNo) : State :=
  let s1 := s.clearUnits p false
  let s2 := ((s.fields p).map fun f => (List.range 8).map (8 * f + ·)).flatten.foldl
    (fun s c => s.rebuildCluster false false (toFin 32 c)) s1
  let s3 := s2.updPart p Part.afterReset
  let s4 := s3.applyStep p
  let s5 := s4.updPart p fun q => { q with clusters := s4.liveClusters p, capacity := s4.capacityOf p }
  match (s5.part p).reset with
  | none => s5
  | some r => match r.owner with
    | none => s5
    | some b =>
      let s6 := s5.meetMailboxes (partMailboxes p) [] true
      { s6 with host := { s6.host with partOwner := setBit s6.host.partOwner p.val b } }.updPart p fun q => { q with bar2Base := 0 }

/-- Finish a partition reset once its generations have advanced. -/
def State.finishReset (s : State) (p : PartNo) : State := (s.wipePart p).leaveReset p

/-- A request that joins a partition reset that is due or in progress (R431); with a new owner the partition's mailboxes
become FREE (R188, R193). -/
def State.joinReset (s : State) (p : PartNo) (old r : ResetReq) : State :=
  let waits := if r.owner.isSome then old.mbs.filter MbId.chip else old.mbs
  let s1 := s.updPart p fun q => { q with reset := some { old with
    mbs := waits ++ r.mbs, owner := r.owner.orElse fun _ => old.owner, both := old.both || r.both } }
  if r.owner.isSome && old.draining then s1.meetMailboxes (partMailboxes p) [] true else s1

/-- A partition reset starts, after its dump where one is taken; a partition held in reset takes none (R412, R415). -/
def State.openReset (s : State) (p : PartNo) (r : ResetReq) (code : Option Code) : State :=
  let s1 := s.updPart p fun q => { q with reset := some r, dump := none }
  if s.rcv.config.dumpEn && s.boot.status.ready && (s.part p).state != 0 then s1 else s1.startDrain p code r.mbs r.owner.isSome

/-- Ask for a partition reset: it joins one that is due or in progress; else it starts (R412, R415, R431). -/
def State.resetPart (s : State) (p : PartNo) (r : ResetReq) (code : Option Code) : State :=
  match (s.part p).reset with
  | some old => if old.level = 3 then s.joinReset p old r else s.openReset p r code
  | none => s.openReset p r code

/-- Both generations of a partition, or GEN alone, advance; the second result says that none waits (R131, R132). -/
def State.advanceFor (s : State) (p : PartNo) (both : Bool) : State × Bool :=
  let s1 := s.advanceGen p
  let s2 := if both then
      (s1.advanceDumpGen p).updPart p fun q => { q with dumpHeld := false, rcv := { q.rcv with dumpSlots := 0 } }
    else s1
  (s2, !(s2.part p).genWait && !(s2.part p).dumpGenWait)

/-! ## Full fills and layouts -/

/-- Every granule of a stack is written as zeros under the placement in force (R135). -/
def State.fillStack (s : State) (m : Fin 12) : State :=
  let f : FillRec := { place := s.placement, gens := s.parts.toList.map fun p => p.gen.gen, dumpGens := s.parts.toList.map fun p => p.gen.dumpGen }
  let st := { s.hbm with
    data := Mem.clear s.hbm.data (m.val * 2 ^ 36) (2 ^ 36),
    metas := s.hbm.metas.filter fun e => e.1 / 2 ^ 28 != m.val }
  ({ s with hbm := st }).updMc m fun x => { x with fill := some f, status := { x.status with filled := true } }

/-- After a full fill of every stack no granule carries an older generation: LIVE holds GEN alone, no sweep runs,
no dump is held (R130, R131, R416). -/
def State.freshGens (s : State) : State :=
  ((List.finRange 4).foldl (fun s p => s.updPart p fun q => { q with
    sweep := none, dumpSweep := none, genWait := false, dumpGenWait := false, dumpHeld := false,
    rcv := { q.rcv with dumpSlots := 0 },
    gen := { q.gen with live := BitVec.ofNat 16 (2 ^ q.gen.gen.toNat), progress := 0 } }) s).markSweeping

/-- Apply a layout code and interleave mode; licences that waited for it take effect (R113, R396, R399). -/
def State.applyLayout (s : State) (code : BitVec 3) (mode : Bool) : State :=
  ({ s with host := { s.host with layout := code }, memConfig := { s.memConfig with mode := mode } }).setPools

/-- Firmware stores the layout and the mode in tray flash (R396). -/
def State.storeLayout (s : State) : State :=
  s.writeSettings fun x => { x with layout := some (s.host.layout, s.memConfig.mode) }

/-- Set a partition up under the layout in force: its registers, clusters and capacity (R15, R18, R396). What becomes of
the registers of a partition that the new layout has not, MEM_POISON_LOG and MEM_SRAM_COUNT among them, the spec does not
say: they are cleared but for those held in bedrock SRAM (DESIGN CHOICE, log 84). -/
def State.setupPart (s : State) (p : PartNo) : State :=
  if s.partExists p then
    (s.updPart p fun q => { q.afterReset with clusters := s.liveClusters p, capacity := s.capacityOf p }).leaveReset p
  else (s.updPart p fun q => { rcv := q.rcv, gen := q.gen, lastSeq := q.lastSeq, held := q.held }).setPartState p 3

/-- A layout change once every partition has drained and every stack is filled (R135, R193, R229). -/
def State.finishLayout (s : State) (mb : MbId) : State :=
  let s0 := (List.finRange 4).foldl (fun s p => s.meetMailboxes (partMailboxes p) [] true) s.freshGens.storeLayout
  let s1 := (List.finRange 4).foldl State.setupPart s0
  ({ s1 with host := { s1.host with layoutMove := none } }).completeCmd mb 0 0

/-- Every partition has drained: pending capacity steps and the layout are applied and the full fill of every usable
stack begins (R113, R129, R135, R399). -/
def State.beginFill (s : State) (mb : MbId) (code : BitVec 3) : State :=
  let s0 := { s with licence := { s.licence with
    granted := s.licence.granted ||| (s.licence.pending &&& 1), pending := s.licence.pending &&& 0x1E } }
  let s1 := (List.finRange 4).foldl (fun s p => (s.clearUnits p false).updPart p fun q => { q with clusters := [], bar2Base := 0 }) s0
  let s2 := (List.finRange 32).foldl (fun s c => s.rebuildCluster false false c) s1
  let s3 := ((List.finRange 4).foldl State.applyStep s2).applyLayout code s2.memConfig.modeNext
  let fill := (List.finRange 12).foldl (fun (b : BitVec 12) m => setBit b m.val (s3.hbm.mcs[m].status.state == 2)) 0
  let s4 := (List.finRange 12).foldl (fun s m => s.updMc m fun x => { x with status := { x.status with filled := false } }) s3
  let s5 := { s4 with host := { s4.host with layoutMove := some (mb, code, 15, true) },
                      boot := { s4.boot with needFill := fill } }
  if fill = 0 then s5.finishLayout mb else s5

/-- A layout change whose full fill is over ends, once firmware serves (R135, R193, R396). -/
def State.endFill (s : State) : State :=
  match s.host.layoutMove with
  | some (mb, _, _, true) => if s.boot.needFill = 0 ∧ s.fwLive = true then s.finishLayout mb else s
  | _ => s

/-! ## Engine resets and lost units -/

/-- A core or cluster is lost: logged with CAUSE 1, counted, treated as bad (R395, R413, R433). -/
def State.loseSlot (s : State) (p : PartNo) (k : Fin 1024) : State :=
  let c := s.coreCluster p k
  let slot := (s.boot.coreMaps[c].getD (k.val % 32) 0)
  let s1 := s.logDefect (slotEntry 1 c.val slot.toNat)
  let s2 := { s1 with boot := { s1.boot with bad := s1.boot.bad.set c (setBit s1.boot.bad[c] slot.toNat true) } }
  (s2.updCore p k fun x => { x with lost := true, aborting := false }).updPart p fun q => { q with rcv := { q.rcv with unitsLost := satInc q.rcv.unitsLost } }

/-- A cluster is lost (R395, R413, R433). -/
def State.loseCluster (s : State) (p : PartNo) (c : Fin 32) : State :=
  let s1 := s.logDefect (clusterEntry 1 c.val)
  let s2 := { s1 with boot := { s1.boot with badClusters := setBit s1.boot.badClusters c.val true } }
  s2.updPart p fun q => { q with rcv := { q.rcv with unitsLost := satInc q.rcv.unitsLost } }

/-- AUTO_LEVEL, 0 acting as 1 (R409). -/
def State.autoLevel (s : State) : Nat := max 1 s.rcv.config.autoLevel.toNat

/-- Halt the cores of a partition that hold a context (R409). -/
def State.haltCores (s : State) (p : PartNo) : State :=
  (s.partCores p).foldl (fun s k => if (s.core p k).ctx.isSome then s.writeHalt p k true else s) s

/-- Level 3 taken by the device: a partition reset, or what stands in for it below AUTO_LEVEL 3: the streams end, the
cores halt, the driver decides (R408, R409, R412, R431). -/
def State.level3 (s : State) (p : PartNo) (code : Code) (detail : Nat) : State :=
  let s1 := s.eventPart p 0x0701 detail
  if s.autoLevel < 3 then
    let s2 := s1.updPart p fun q => { q with reset := q.reset.filter fun r => r.level == 3 }
    ((s2.haltCores p).failStream p code).settleEnd p
  else
    let s2 := s1.escalate 3 p 0x3FF code
    let s3 := { s2 with rcv := { s2.rcv with status := { s2.rcv.status with partResets := satInc s2.rcv.status.partResets } } }
    s3.resetPart p { level := 3, trigger := code } (some code)

/-- The engine reset of a core proceeds, after its dump: its context aborts and its stream ends; the reset lasts until
the core reads idle (R408, R411). -/
def State.startEngineReset (s : State) (p : PartNo) (code : Code) : State :=
  match (s.part p).reset with
  | none => s
  | some r =>
    let k : Fin 1024 := toFin 1024 r.core.toNat
    let s1 := s.updPart p fun q => { q with
      dump := none, reset := some { r with draining := true },
      rcv := { q.rcv with engineResets := satInc q.rcv.engineResets } }
    let s2 := { s1 with rcv := { s1.rcv with status := { s1.rcv.status with engineResets := satInc s1.rcv.status.engineResets } } }
    ((s2.failStream p code).beginAbort p k).escalate 2 p r.core code

/-- Level 2: an engine reset, after its dump where one is taken, or what stands in for it below AUTO_LEVEL 2 (R408,
R409, R411, R415). -/
def State.level2 (s : State) (p : PartNo) (k : Fin 1024) (code : Code) : State :=
  let core := BitVec.ofNat 10 k.val
  if s.autoLevel < 2 then (s.writeHalt p k true).failStream p code
  else
    let s1 := (s.updPart p fun q => { q with reset := some { level := 2, trigger := code, core := core } }).escalate 2 p core code
    if s.rcv.config.dumpEn then s1 else s1.startEngineReset p code

end Sys2Proof.Machine
end

