-- ==== Sys2Proof/Machine/FirmwareOps.lean ====
section
/-! DEFINITION. Images and slots, the boot control record, measurements, licences, keys; activation, confirmation
and revert as operations (R439, R446, R451 to R462). -/

namespace Sys2Proof.Machine

/-! ## Slots -/

/-- A slot's index. -/
def slotIdx (b : Bool) : Fin 2 := if b then 1 else 0

/-- The image in a slot. -/
def State.slot (s : State) (b : Bool) : Option Image := s.flash.slots[slotIdx b]

/-- Replace the image in a slot. -/
def State.setSlot (s : State) (b : Bool) (i : Option Image) : State :=
  { s with flash := { s.flash with slots := s.flash.slots.set (slotIdx b) i } }

/-- SLOT_n_VALID (R453). -/
def State.slotValid (s : State) (b : Bool) : Bool := if b then s.mgmt.fw.slot1Valid else s.mgmt.fw.slot0Valid

/-- Set SLOT_n_VALID. -/
def State.setSlotValid (s : State) (b v : Bool) : State :=
  let fw := if b then { s.mgmt.fw with slot1Valid := v } else { s.mgmt.fw with slot0Valid := v }
  { s with mgmt := { s.mgmt with fw := fw } }

/-- How far the parts received reach without a gap from byte 0; `n` bounds the parts put together. -/
def reachOf : Nat → List (Nat × Nat) → Nat → Nat
  | 0, _, r => r
  | n + 1, g, r => reachOf n g (g.foldl (fun r x => if x.1 ≤ r then max r (x.1 + x.2) else r) r)

/-- BODY_LEN (R453). -/
def Image.bodyLen (i : Image) : Nat := i.field 0x10 0 32

/-- SVN (R453). -/
def Image.svn (i : Image) : Nat := i.field 0x0C 0 6

/-- MAJOR (R453). -/
def Image.major (i : Image) : Nat := i.field 0x08 0 16

/-- MINOR (R453). -/
def Image.minor (i : Image) : Nat := i.field 0x08 16 16

/-- SETTINGS_FORMAT (R453). -/
def Image.format (i : Image) : BitVec 16 := BitVec.ofNat 16 (i.field 0x14 0 16)

/-- SETTINGS_FORMAT of the image in a slot (R453, R461). -/
def State.slotFormat (s : State) (b : Bool) : BitVec 16 := (s.slot b).elim 0 Image.format

/-- Every byte of the body was received (R457). -/
def Image.complete (i : Image) : Bool := decide (i.bodyLen ≤ reachOf i.got.length i.got 0)

/-- The header bits that R453 names. -/
def imageFields : List (Nat × Nat × Nat) :=
  [(0, 0, 32), (4, 0, 8), (8, 0, 32), (0xC, 0, 6), (0x10, 0, 32), (0x14, 0, 16), (0x18, 0, 3), (0x20, 0, 512), (0xC0, 0, 512)]

/-- The header's own form (R453). -/
def Image.formOk (i : Image) : Bool :=
  let used := (imageFields.map fun f => i.field f.1 f.2.1 f.2.2 * 2 ^ (8 * f.1 + f.2.1)).foldl (· + ·) 0
  i.field 0 0 32 == 0x4F4C4855 && i.field 4 0 8 == 1 && used == i.header.toNat && decide (1 ≤ i.bodyLen)
    && decide (i.bodyLen ≤ 24 * 2 ^ 20)

/-- The image supports the fused limit set (R457). -/
def State.limitsOk (s : State) (i : Image) : Bool := i.field 0x18 s.fuses.limitSet.toNat 1 == 1

/-- The image's SVN is not below the counter (R454). -/
def State.svnOk (s : State) (i : Image) : Bool := decide (s.fuses.svn.toNat ≤ i.svn)

/-- A slot holds an image that passes the checks of R457 other than its signature and hash. -/
def State.slotFits (s : State) (b : Bool) : Bool :=
  match s.slot b with
  | none => false
  | some i => s.svnOk i && s.limitsOk i && i.complete

/-- SLOT_n_VALID against the current counter: an image below it is no longer valid (R453, R454). -/
def State.recheckSlots (s : State) : State :=
  (s.setSlotValid false (s.slotValid false && s.slotFits false)).setSlotValid true (s.slotValid true && s.slotFits true)

/-! ## Trial -/

/-- TRIAL_STATUS shows the record (R464). -/
def State.showTrial (s : State) : State :=
  let r := s.bootRec
  { s with mgmt := { s.mgmt with trial := { s.mgmt.trial with
    trial := r.trial, trialStarts := r.trialStarts, seconds := satOf 10 r.trialSeconds.toNat } } }

/-! ## Measurements, identity, keys, licences -/

/-- Replace a measurement, 1 to 7 (R446). -/
def State.setMeasurement (s : State) (n : Nat) (x : BitVec 512) : State :=
  { s with mgmt := { s.mgmt with measurements := s.mgmt.measurements.set (toFin 7 (n - 1)) x } }

/-- Measurement 3: the counter and the running image's versions (R446). -/
def State.measureSvn (s : State) : State :=
  s.setMeasurement 3 (Config.measure 3 [s.fuses.svn.toNat, s.mgmt.fw.svn.toNat, s.mgmt.fw.major.toNat, s.mgmt.fw.minor.toNat])

/-- The image in a slot runs: FW_VERSION, measurements 2 and 3 (R446, R464). -/
def State.runImage (s : State) (b : Bool) : State :=
  match s.slot b with
  | none => s
  | some i =>
    let fw := { s.mgmt.fw with
      major := BitVec.ofNat 16 i.major, minor := BitVec.ofNat 16 i.minor, svn := BitVec.ofNat 6 i.svn, activeSlot := b }
    let s1 := { s with mgmt := { s.mgmt with fw := fw, format := i.format } }
    (s1.setMeasurement 2 (Config.sha512 (bytesOfNat 256 i.header.toNat ++ Mem.read i.body 0 i.bodyLen))).measureSvn

/-- The owner key in use (R439, R449). -/
def Fuses.owner (f : Fuses) : BitVec 256 := f.ownerKeys[toFin 4 f.ownerSlot.toNat]

/-- SHA-512 of a key, as a number. -/
def keyHash (k : BitVec 256) : Nat := (Config.sha512 (bytesOfNat 32 k.toNat)).toNat

/-- Measurement 4: life cycle and owner (R446). -/
def State.measureLife (s : State) : State :=
  s.setMeasurement 4 (Config.measure 4 [s.fuses.lifecycle.toNat, s.fuses.ownerSlot.toNat, keyHash s.fuses.owner])

/-- Measurement 5: limits and Caerven's keys (R446). -/
def State.measureLimits (s : State) : State :=
  s.setMeasurement 5 (Config.measure 5 [s.fuses.limitSet.toNat, s.fuses.pMax, s.fuses.maxStep,
    (Config.sha512 ((s.fuses.caerven.toList.map fun k => bytesOfNat 32 k.toNat).flatten)).toNat])

/-- Measurement 6: the licences in force, in store order (R446). -/
def State.measureLicences (s : State) : State :=
  s.setMeasurement 6 (Config.sha512 ((s.flash.licences.toList.filterMap fun l => l.map fun x => bytesOfNat 160 x.toNat).flatten))

/-- Measurement 7: the controller key records (R446). -/
def State.measureKeys (s : State) : State :=
  s.setMeasurement 7 (Config.measure 7 ((s.flash.keys.toList.map fun k => match k with
    | none => [0, 0]
    | some r => [r.roles.toNat, r.key.toNat]).flatten))

/-- The controller key record of a slot, where it carries the signature of the owner in force (R439). -/
def State.keyAt (s : State) (i : Fin 3) : Option KeyRec := (s.flash.keys[i]).filter fun r => r.signedBy == s.fuses.owner

/-- SEC_STATUS from the fuses and the stores (R464). -/
def State.showSec (s : State) : State :=
  let life := s.fuses.lifecycle
  let sec := { s.mgmt.sec with
    lifecycle := life, ownerSlot := s.fuses.ownerSlot, ownerSlotsUsed := s.fuses.ownerSlotsUsed, svnCounter := s.fuses.svn,
    keys := BitVec.ofNat 3 ((List.range 3).foldl (fun a i => if (s.keyAt (toFin 3 i)).isSome then a + 2 ^ i else a) 0),
    grantedIds := BitVec.ofNat 16 ((List.range 16).foldl (fun a i => if (s.flash.licences[toFin 16 i]).isSome then a + 2 ^ i else a) 0) }
  let rack := (List.finRange 3).any fun i => (s.keyAt i).any fun r => r.roles.getLsbD 0
  { s with mgmt := { s.mgmt with sec := sec, status := { s.mgmt.status with rackKey := rack } } }

/-- The features of a licence (R451). -/
def licenceFeatures (l : BitVec 1280) : BitVec 5 := l.extractLsb' 64 5

/-- The OR of FEATURES over the stored licences (R452). -/
def State.features (s : State) : BitVec 5 :=
  s.flash.licences.toList.foldl (fun a l => a ||| (l.map licenceFeatures).getD 0) 0

/-- Enable P12 to P15 and train them (R399). -/
def State.enableW (s : State) : State :=
  ([12, 13, 14, 15] : List (Fin 20)).foldl (fun s n =>
    let s1 := s.updLink n fun x => { x with ctrl := { x.ctrl with enable := true } }
    if (s1.link n).status.state = 0 then s1.trainPort n else s1) s

/-- P12 to P15 become DISABLED without their licence; one that is not DOWN already fails with reason 0 (R265, R399). -/
def State.disableW (s : State) : State :=
  ([12, 13, 14, 15] : List (Fin 20)).foldl (fun s n =>
    if !(s.link n).ctrl.enable then s
    else
      let st := (s.link n).status.state
      let s1 := if st = 0 ∨ st = 4 then s else s.failPort n 0
      s1.updLink n fun x => { x with ctrl := { x.ctrl with enable := false }, status := { x.status with state := 0 } }) s

/-- Licences at an install: of new features bits 1, 3 and 4 take effect at once, bits 0 and 2 wait for their points; a feature that
no stored licence has any more is no longer granted (R399, R452). -/
def State.evalLicences (s : State) : State :=
  let new := s.features &&& ~~~(s.licence.granted)
  let s1 := { s with licence := { s.licence with
    granted := (s.licence.granted &&& s.features) ||| (new &&& 0x1A),
    pending := (s.licence.pending &&& s.features) ||| (new &&& 0x05) } }
  let s2 := if new.getLsbD 4 then s1.enableW else if s1.licence.granted.getLsbD 4 then s1 else s1.disableW
  s2.measureLicences.showSec

/-- A licence's form and binding (R451, R452). -/
def State.licenceOk (s : State) (l : BitVec 1280) : Bool :=
  l.extractLsb' 0 32 == 0x4E43494C && l.extractLsb' 32 8 == 1 && l.extractLsb' 40 24 == 0 && l.extractLsb' 69 27 == 0
    && l.extractLsb' 128 256 == s.fuses.binding && l.extractLsb' 384 384 == 0

/-- Install a licence: the code of the outcome, and the state (R452). -/
def State.installLicence (s : State) (bytes : List Byte) (sigOk : Bool) : State × Code :=
  let l : BitVec 1280 := BitVec.ofNat 1280 (natOfBytes bytes)
  if bytes.length ≠ 160 then (s, 0x0102)
  else if s.fuses.lifecycle ≠ 1 ∧ s.fuses.lifecycle ≠ 2 then (s, 0x0604)
  else if !s.licenceOk l || !sigOk then (s, 0x0602)
  else
    let same := s.flash.licences.toList.findIdx? fun x => match x with
      | none => false
      | some y => y.extractLsb' 96 32 == l.extractLsb' 96 32
    let free := s.flash.licences.toList.findIdx? Option.isNone
    match same.orElse fun _ => free with
    | none => (s, 0x0106)
    | some i =>
      let s1 := { s with flash := { s.flash with licences := s.flash.licences.set (toFin 16 i) (some l) } }
      (s1.evalLicences, 0)

/-! ## Activation, confirmation, revert -/

/-- A stream is open or waits in some partition (R441, R449, R458). -/
def State.anyStream (s : State) : Bool := s.parts.toList.any fun q => q.stream.isSome || !q.queue.isEmpty

/-- The refusals of FW_ACTIVATE (R458). -/
def State.activateCheck (s : State) (slot : Bool) : Code :=
  let major := match s.slot slot with
    | none => 0
    | some i => i.major
  if slot == s.mgmt.fw.activeSlot || !s.slotValid slot || s.mgmt.trial.trial || s.rcv.chip.isSome || s.boot.starting
      || s.host.service != 0 || s.mgmt.change.isSome then 0x0103
  else if major ≠ s.mgmt.fw.major.toNat ∧ s.anyStream then 0x0103
  else 0

/-- The pause of an activation begins: SERVICE 2, the power controller stalls, the boot control record is written,
the new image runs and writes the settings in its format as well (R459, steps 1 to 4; R461; log 66). An image whose staged
copy was lost is staged again before (R457). A revert erases the copies in the format of the image that it leaves (R462). -/
def State.beginActivation (s : State) (a : Activation) : State :=
  let old := s.bootRec
  let s1 := ({ s with host := { s.host with service := 2 }, mgmt := { s.mgmt with activation := some a, staged := some a.slot } }).stallPower
  let s2 := s1.writeBoot (match a.revert with
    | none => { old with active := a.slot, trial := true, trialStarts := 0, trialSeconds := 0, oldFormat := s.mgmt.format }
    | some _ => { old with active := a.slot, trial := false })
  let s3 := (match a.revert with
    | none => (s2.runImage a.slot).writeSettings id
    | some _ => (s2.runImage a.slot).eraseFormat (s.slotFormat (!a.slot)) (s.slotFormat a.slot)).showTrial
  { s3 with mgmt := { s3.mgmt with
    trial := { s3.mgmt.trial with cpbTested := false, healthOk := false }, trialClear := 0, trialSwitches := 0 } }

/-- The event of a revert (R462). -/
def State.revertEvent (s : State) (cause : BitVec 2) : State := s.eventChip 0x0605 0 cause.toNat

/-- Every open stream ends abandoned (R462). -/
def State.abandonStreams (s : State) : State := (List.finRange 4).foldl (fun s p => s.failStream p 0x0705) s

/-- A trial reverts: an activation of the other slot. Where the two images differ in MAJOR, every open stream ends abandoned
before its pause begins (R462; log 65). -/
def State.revert (s : State) (cause : BitVec 2) : State :=
  let slot := !s.mgmt.fw.activeSlot
  let major := match s.slot slot with
    | none => 0
    | some i => i.major
  if major ≠ s.mgmt.fw.major.toNat ∧ (s.abandonStreams.parts.toList.any fun q => q.stream.isSome) = true then s.abandonStreams
  else
    let s1 := if major ≠ s.mgmt.fw.major.toNat then s.abandonStreams else s
    ((s1.beginActivation { slot := slot, mb := none, msg := none, revert := some cause, start := s.time }).revertEvent cause)

/-- The DETAIL of an activation's response: versions of the old image and of the new one (R458). -/
def versionDetail (oldMajor oldMinor newMajor newMinor : Nat) : Nat := oldMajor + oldMinor * 2 ^ 16 + newMajor * 2 ^ 32 + newMinor * 2 ^ 48

end Sys2Proof.Machine
end

