-- ==== Sys2Proof/Machine/StartOps.lean ====
section
/-! DEFINITION. Starts, stages and cairn records, and the chip reset as operations (R193, R385 to R398, R407, R431,
R472 to R477). -/

namespace Sys2Proof.Machine

/-! ## Cairn records -/

/-- Change the bring-up state. -/
def State.updBoot (s : State) (f : Boot → Boot) : State := { s with boot := f s.boot }

/-- Change the lands. -/
def State.updLands (s : State) (f : Lands → Lands) : State := { s with lands := f s.lands }

/-- Write the cairn record of a stage (R387). -/
def State.setCairn (s : State) (n : Fin 10) (c : Cairn) : State := s.updBoot fun b => { b with cairn := b.cairn.set n c }

/-- A stage begins (R385, R387). -/
def State.beginRecord (s : State) (n : Fin 10) : State :=
  let s1 := s.setCairn n { stage := BitVec.ofNat 4 n.val, startKind := s.boot.status.startKind, outcome := 5 }
  s1.updBoot fun b => { b with
    stageAt := s.time, status := { b.status with stage := BitVec.ofNat 4 n.val, outcome := 5 } }

/-- A stage is skipped: its record alone is written (R385). -/
def State.skipStage (s : State) (n : Fin 10) : State :=
  s.setCairn n { stage := BitVec.ofNat 4 n.val, startKind := s.boot.status.startKind, outcome := 4, tEnd := s.time }

/-- What a stage's record holds at its end besides its place and times (R387). -/
structure StageEnd where
  outcome : BitVec 3 := 1
  status : Code := 0
  detail : Nat := 0
  tested : Nat := 0
  good : Nat := 0
  mappedOut : Nat := 0
  disagree : Nat := 0

/-- The running stage ends (R387, R402). -/
def State.endRecord (s : State) (e : StageEnd) : State :=
  let n : Fin 10 := toFin 10 s.boot.status.stage.toNat
  let c : Cairn := { s.boot.cairn[n] with
    outcome := e.outcome, status := e.status, durationUs := satOf 32 ((s.time - s.boot.stageAt).toNat / 1000), tEnd := s.time,
    detail := BitVec.ofNat 32 e.detail, tested := satOf 16 e.tested, good := satOf 16 e.good, mappedOut := satOf 16 e.mappedOut,
    disagree := satOf 16 e.disagree }
  let remarked := e.outcome == 2 || e.outcome == 3
  (s.setCairn n c).updBoot fun b => { b with status := { b.status with
    outcome := e.outcome, lastStatus := if remarked then e.status else b.status.lastStatus } }

/-- The package halts at the running stage (R386). -/
def State.haltStart (s : State) (e : StageEnd) : State :=
  (s.endRecord { e with outcome := 3 }).updBoot fun b => { b with
    starting := false, startDue := false, status := { b.status with halted := true } }

/-! ## Full fills and placement at a start -/

/-- The generations of a partition after a full fill are current and alone (R130, R135); all stacks must be
filled. -/
def State.filledAll (s : State) : Bool := (List.finRange 12).all fun m => s.hbm.mcs[m].status.filled || s.hbm.mcs[m].status.failed

/-- GiB retired from a field, by the KIND 4 entries of the field defect log (R390). -/
def State.loggedGib (s : State) (f : Nat) : Nat :=
  sumNat ((s.flash.defects.filter fun e => e.checkOk && e.kind == 4 && e.field == BitVec.ofNat 2 f).map fun e => e.value.toNat)

/-- The layout code that a start applies: the one held, at a cold start that of tray flash, else 7; 7 without the
multi-partition licence. The second result says that it was forced, the third that tray flash gave it (R396). -/
def State.startLayout (s : State) : BitVec 3 × Bool × Bool :=
  let cold := s.boot.status.startKind == 0
  let want := if cold then (s.settings.layout.map (·.1)).getD 7 else s.host.layout
  let licensed := s.features.getLsbD 0
  let fromFlash := cold && s.settings.layout.isSome
  if licensed || want == 7 then (want, false, fromFlash && licensed) else (7, true, false)

/-- The interleave mode that a start applies: at a cold start that of tray flash (R396). -/
def State.startMode (s : State) : Bool :=
  if s.boot.status.startKind = 0 then (s.settings.layout.map (·.2)).getD false else s.memConfig.mode

/-- Pages of a stack whose retirement is in force: those of fused page groups and those of the field defect log
(R127, R389, R391). -/
def State.knownPages (s : State) (m : Fin 12) : List Nat :=
  let fused := ((s.fuses.pageGroups.filter fun g => g.1 == m.val).map fun g => (List.range 16).map (16 * g.2 + ·)).flatten
  let logged := (s.flash.defects.filter fun e => e.checkOk && e.kind == 3 && e.stack == BitVec.ofNat 4 m.val).map fun e => e.value.toNat
  (fused ++ logged).eraseDups

/-- S4 begins: the layout is chosen, the stacks that need a full fill train: every stack at a power-up, an exit from PS4
and a change of layout or mode (R128, R135, R386, R396). Retirements that wait for a pool page wait on (R129). -/
def State.beginS4 (s : State) : State :=
  let lay := s.startLayout
  let all := s.boot.status.startKind == 0 || s.boot.status.startKind == 1 || lay.1 != s.host.layout
    || s.startMode != s.memConfig.mode
  let s1 := { s with
    host := { s.host with layout := lay.1 }, memConfig := { s.memConfig with mode := s.startMode },
    hbm := { s.hbm with retiredGib := (List.range 4).map s.loggedGib } }
  let need := (List.finRange 12).foldl (fun (b : BitVec 12) m => setBit b m.val (all || !s1.hbm.mcs[m].status.filled)) 0
  let s2 := (List.finRange 12).foldl (fun s m => s.updMc m fun x => { x with
    copying := [],
    status := { x.status with state := 1, failed := false, filled := !need.getLsbD m.val } }) s1
  (s2.updBoot fun b => { b with needFill := need, forced := lay.2.1, config := { b.config with flashLayout := lay.2.2 } }).beginRecord 4

/-- Reload the retirements of a stack into its controller (R117, R127). -/
def State.reloadPages (s : State) (m : Fin 12) (repaired : Nat) : State :=
  let pages := s.knownPages m
  let total := stackPages0 - s.placement.stackPages m.val
  let used := min total pages.length
  s.updMc m fun x =>
    let waiting := pages.drop used ++ x.waiting.filter fun g => !pages.contains g
    { x with
      retired := pages.take used, waiting := waiting,
      spare := { poolTotal := BitVec.ofNat 18 total, poolUsed := BitVec.ofNat 18 used, exhausted := !waiting.isEmpty,
                 rowsRepaired := BitVec.ofNat 16 repaired } }

/-! ## Stages begin -/

/-- S1 begins: the cairn records move, the flash is requested (R385, R388, R477). -/
def State.beginS1 (s : State) : State :=
  let s1 := s.updBoot fun b => { b with
    startDue := false, granted := false, booted := false, s3Since := none, s3Hot := false }
  (s1.updLands fun l => { l with flashReqN := false, flashGntN := true }).beginRecord 1

/-- The cairn records of the current start become those of the previous one (R388). -/
def State.moveCairn (s : State) : State := s.updBoot fun b => { b with previous := b.cairn, cairn := Vector.replicate 10 {} }

/-- S1 may begin: the rails are good, PKG_RESET_N is released, no trip is latched (R363, R476, R481). -/
def State.mayBoot (s : State) : Bool := s.lands.pkgResetN && s.lands.pwrGood && s.lands.coreEn && !s.power.status.tripped

/-- Request the rails that are not requested: RAIL_EN first, CORE_EN once its rails are good; each rise holds PWR_GOOD
low (R472). -/
def State.raiseRails (s : State) : State :=
  if s.power.status.tripped || s.rcv.restartDue || !s.lands.bedrockPg then s
  else if !s.lands.railEn then s.updLands fun l => { l with railEn := true, pwrGood := false }
  else if !s.lands.coreEn && s.lands.pwrGood then s.updLands fun l => { l with coreEn := true, pwrGood := false }
  else s

/-- A start of a kind is due; S0 is skipped. It waits while PKG_RESET_N is held or the rails are not good (R385,
R402, R476, R481). -/
def State.startAgain (s : State) (kind : Nat) : State :=
  let s1 := s.moveCairn.updBoot fun b => { b with
    starting := true, startDue := true,
    status := { b.status with stage := 1, startKind := BitVec.ofNat 4 kind, outcome := 0, ready := false, halted := false, starts := b.status.starts + 1 } }
  let s2 := (s1.skipStage 0).raiseRails
  if s2.mayBoot then s2.beginS1 else s2

/-- S6 begins: the licensed ports are enabled (R273, R385, R399). -/
def State.beginS6 (s : State) : State :=
  let s1 := (List.finRange 18).foldl (fun s n =>
    if n.val < 12 || 16 ≤ n.val || s.licence.granted.getLsbD 4 then
      s.updLink (n.castLE (by decide)) fun x => { x with ctrl := { x.ctrl with enable := true } }
    else s) s
  s1.beginRecord 6

/-- S8 begins: layout, licences, a generation advance of every partition (R131, R385, R396, R399). -/
def State.beginS8 (s : State) : State :=
  let s1 := { s with licence := { granted := s.features, pending := 0 } }
  let s2 := if s1.licence.granted.getLsbD 4 then s1.enableW else s1.disableW
  let s3 := (List.finRange 4).foldl (fun s p => if s.partExists p then s.advanceGen p else s) s2
  (s3.measureLicences.showSec.setPools).beginRecord 8

/-- The stage after S5: the ports' and links' stages are skipped at a compute-only reset (R385). -/
def State.afterS5 (s : State) : State :=
  if s.boot.status.startKind = 3 then ((s.skipStage 6).skipStage 7).beginS8 else s.beginS6

/-! ## The chip reset -/

/-- A partition after a chip reset, before S8 (R374, R378). The energy records are lost and `lost` restarts: ENERGY_READ's count
of records no longer held does not count them (R239 does not say; DESIGN CHOICE, log 86). -/
def Part.afterChipReset (q : Part) : Part :=
  { dumpHeld := q.dumpHeld, lastSeq := q.lastSeq, gen := q.gen, sweep := q.sweep, dumpSweep := q.dumpSweep,
    capacity := { pendingGib := q.capacity.pendingGib }, pendingStack := q.pendingStack, rcv := q.rcv }

/-- A memory controller after a chip reset: its stack in self-refresh with its contents and its fill; retirements that
wait for a pool page wait on (R129, R134, R142, R398). -/
def Mc.afterChipReset (x : Mc) : Mc :=
  { status := { state := if x.status.state = 0 then 0 else 3, filled := x.status.filled, failed := x.status.failed }, fill := x.fill,
    retired := x.retired, waiting := x.waiting }

/-- The power controller after a chip reset: pins, the safety monitor, the latched trip and what bedrock holds stand
(R363, R364, R401). -/
def Power.afterChipReset (w : Power) (f : Fuses) : Power :=
  { status := { tripped := w.status.tripped, orphan := w.status.orphan }, thm := { tripFields := w.thm.tripFields }, safety := w.safety,
    cycles := w.cycles, settings := w.settings, brakePin := w.brakePin, coolPin := w.coolPin, psSeconds := w.psSeconds,
    hourSeconds := w.hourSeconds, vmin := f.vmin, vf := vfTable f.vmin 45 0, gated := w.gated,
    config := { pMax := BitVec.ofNat 12 f.pMax, maxStep := BitVec.ofNat 4 f.maxStep },
    rackForce := BitVec.ofNat 12 (min 2200 f.pMax), headroom := { rTh := f.rTh },
    limits := {
      rackCap := BitVec.ofNat 12 (min 2200 f.pMax), trayCap := BitVec.ofNat 12 f.pMax,
      effective := BitVec.ofNat 12 (min 2200 f.pMax) } }

/-- A port at a package power state's entry: what the retention list keeps, DOWN otherwise (R272, R378). -/
def Link.dark (x : Link) (n : Nat) : Link :=
  let r := Link.reset n x
  { r with ctrl := { r.ctrl with enable := x.ctrl.enable, standIn := x.ctrl.standIn }, expect := x.expect,
           status := { r.status with state := if x.ctrl.enable then 4 else 0, downs := x.status.downs, role := x.status.role } }

/-- The ports go dark without the core rails; what the switch held is lost but for what the retention list keeps (R2, R272, R378,
R472). -/
def State.goDark (s : State) : State :=
  let f := s.fab
  let links := f.links.mapFinIdx fun i (x : Link) _ => x.dark i
  { s with fab := { epoch := f.epoch, ring := f.ring, arb := f.arb, congCfg := f.congCfg, routes := f.routes, links := links, wire := f.wire } }

/-- The fabric after a whole-package reset: DOWN with reason 1 on every UP port, then every register at its reset
value; training records stay in tray flash (R255, R272, R273, R482). -/
def State.fabReset (s : State) (reason : BitVec 8) : State :=
  let s1 := (List.finRange 20).foldl (fun s n => if (s.link n).status.state = 3 then s.emit n (.link (.down reason)) else s) s
  let ls := s1.fab.links.mapFinIdx fun i (x : Link) _ => Link.reset i x
  { s1 with fab := { links := ls, wire := s1.fab.wire } }

/-- Every accepted command is abandoned and every mailbox becomes FREE, but for the mailbox of the reset's own
command, whose state the start keeps (R193, R205). -/
def State.resetMailboxes (s : State) (mb : Option MbId) : State :=
  let held := mb.map fun m => (m, s.mailbox m)
  let es := s.host.journal.map fun e =>
    let mine := match held with
      | some (_, x) => e.2.seq == x.seq
      | none => false
    if (e.2.state == 1 || e.2.state == 2) && !mine then (e.1, { e.2 with state := 5, result := 0x0705, tEnded := s.time }) else e
  let h := { s.host with
    ports := s.host.ports.map fun x => { x with held := x.held.filter HeldAccess.bar2 },
    mailboxes := [], journal := es, service := 0, ownerMove := none, layoutMove := none, chipEvt := {},
    chipResets := s.host.chipResets + 1 }
  { s with host := h, boot := { s.boot with resetMb := held } }

/-- What a chip reset, and the loss of the core rails in PS4, leaves of the partitions' units, the memory controllers and
the power controller (R140, R374, R378). -/
def State.coreRailReset (s : State) : State :=
  { s with
    parts := s.parts.map Part.afterChipReset, cores := [], clus := Vector.replicate 32 {}, sram := [], sramPoison := [],
    qins := [], qouts := [], dma := Vector.replicate 32 {}, mesh := [], words := [], wordAfter := [],
    reply := (List.finRange 4).foldl freeReplies s.reply,
    memConfig := { mode := s.memConfig.mode },
    hbm := { s.hbm with mcs := s.hbm.mcs.map Mc.afterChipReset },
    power := s.power.afterChipReset s.fuses }

/-- The chip reset of R398, up to the start that follows it: what a compute-only or whole-package reset resets and
what it keeps (R140, R193, R272, R374, R398, R411). In the compute-only style the switch keeps its packets; what was on the mesh
ends at the units that are reset (DEDUCED, log 82). -/
def State.chipReset (s : State) (whole : Bool) (mb : Option MbId) (msg : Option (Bool × BitVec 32 × BitVec 64)) : State :=
  let s1 := s.resetMailboxes mb
  let s2 := s1.coreRailReset
  let s3 := if whole then
      (List.finRange 2).foldl (fun s i => { s with host := { s.host with ports := s.host.ports.set i {} } }) (s2.fabReset 1)
    else { s2 with fab := { s2.fab with cpRing := [] } }
  let cp := { s3.rcv.cp with active := false, token := 0, cpaState := 0, cpbState := 0 }
  let s4 := { s3 with
    rcv := { s3.rcv with chip := none, cp := cp, gapAt := none, silent := 0 },
    boot := { s3.boot with resetMsg := msg },
    clocks := { s3.clocks with pkg := .run, clk := { s3.clocks.clk with
      aclkLock := 0, cpLock := false, nclkLock := s3.clocks.clk.nclkLock && !whole } },
    mgmt := { s3.mgmt with
      activation := none, dropped := none, change := none, probe := none, spdm := [], spdmHeld := [], transfer := none,
      sec := { s3.mgmt.sec with debugOpen := s3.fuses.lifecycle == 0 } } }
  s4.startAgain (if whole then 2 else 3)

/-- Note an escalation of the package: the code and partition are unstated, so free (R407, R432; log 8). -/
def State.escalateChip (s : State) (level : Nat) : State :=
  (s.escalate level (toFin 4 (Config.freeNat s.freeCtr)) 0x3FF (freeCode (s.freeCtr + 1))).bump.bump

/-- A command processor can run (R414). -/
def State.cpRuns (s : State) : Bool := s.rcv.cp.token != 2 || s.rcv.gapAt.isSome

/-- Partitions whose dump a pending chip reset still waits for (R415, R431). -/
def State.dumpsDue (s : State) (r : ChipReq) : List PartNo :=
  if !s.rcv.config.dumpEn || !s.cpRuns || !s.boot.status.ready then []
  else (List.finRange 4).filter fun p => !r.dumped.getLsbD p.val && ((s.part p).state == 2 || (s.part p).state == 3)

/-- The pending chip reset begins once its dumps have ended and no activation pause runs (R415, R463). -/
def State.tryChipReset (s : State) : State :=
  match s.rcv.chip with
  | none => s
  | some r => if (s.dumpsDue r).isEmpty && s.host.service != 2 then s.chipReset r.whole r.mb r.msg else s

/-- Ask for a chip reset: partition resets stop, and a partition whose dump is written is not dumped again (R415,
R431). -/
def State.askChipReset (s : State) (whole : Bool) (mb : Option MbId) (msg : Option (Bool × BitVec 32 × BitVec 64)) : State :=
  let done := (List.finRange 4).foldl (fun (b : BitVec 4) p => setBit b p.val (match (s.part p).reset with
    | some r => r.level == 3 && r.draining
    | none => false)) 0
  let s1 := (List.finRange 4).foldl (fun s p => s.updPart p fun q => { q with reset := none }) (s.escalateChip 4)
  ({ s1 with rcv := { s1.rcv with chip := some { whole := whole || s1.boot.config.wholeOnly, mb := mb, msg := msg, dumped := done } } }).tryChipReset

end Sys2Proof.Machine
end

