-- ==== Sys2Proof/Machine/BootEvents.lean ====
section
/-! DEFINITION. Starts as events: power-up, rails, PKG_RESET_N, the flash grant, the stages' ends (R385 to R402, R455,
R456, R472 to R478, R481). -/

namespace Sys2Proof.Machine

/-! ## Power-up, rails and reset lands -/

/-- Whether a stage of a start runs. -/
def State.inStage (s : State) (n : Nat) : Bool :=
  s.boot.starting && s.boot.status.stage.toNat == n && s.boot.status.outcome == 5

/-- BEDROCK_PG rises: S0 begins, straps are sampled, BOOT_ID is drawn, RAIL_EN rises, debug is open in BLANK alone (R201, R385, R439, R448, R472,
R478). -/
def execColdStart (wholeOnly : Bool) (addr : BitVec 3) (s : State) : Out :=
  if s.lands.bedrockPg then .next s
  else
    let s1 := s.bump
    let boot : Boot := { starting := true, status := { starts := 1 }, config := { wholeOnly := wholeOnly, strapAddr := addr, limitSet := s.fuses.limitSet } }
    let s2 := { s1 with
      host := { s1.host with bootId := BitVec.ofNat 32 (Config.freeNat s.freeCtr) }, boot := boot,
      lands := { s1.lands with bedrockPg := true, railEn := true, coreEn := false, pwrGood := false },
      mgmt := { s1.mgmt with counters := s1.settings.counters, sec := { s1.mgmt.sec with debugOpen := s1.fuses.lifecycle == 0 } } }
    .next ((s2.showSec.updPower fun w => Power.afterChipReset w s.fuses).beginRecord 0)

/-- CP-A resumes after a wake from PS3: PLLs locked, the retention list restored, stacks out of self-refresh, ports
dark until they train; PWR_BRAKE and COOL_ALERT act if they are still asserted (R378, R382, R383). -/
def State.resumePs3 (s : State) : State :=
  let clk := { s.clocks.clk with aclkLock := 15, nclkLock := true, cpLock := true, onWake := false }
  let s1 := { s with clocks := { s.clocks with pkg := .run, clk := clk, ps := { s.clocks.ps with entering := false } } }
  let s2 := (List.finRange 12).foldl (fun s m => s.updMc m fun x => if x.status.state = 3 then { x with status := { x.status with state := 2 } } else x) s1
  let s3 := (List.finRange 12).foldl (fun s m => s.reloadPages m s.hbm.mcs[m].spare.rowsRepaired.toNat) s2
  let s4 := s3.updPower fun w => { w with
    status := { w.status with step := 0, target := 0, vfBusy := false }, freq := w.freqOf 0, volt := w.vreq 0, move := none }
  (List.finRange 4).foldl (fun s p => s.updPart p fun q => { q with
    strata := q.strata.filter fun t => match s.stratumCheck p t.1 t.2.addr t.2.len with
      | .ok _ => true
      | .error c => c == 0x0103 }) s4.pinsAct.setLevels

/-- PWR_GOOD rises: CORE_EN follows RAIL_EN, then the power-up, the restart or the wake goes on (R382, R472, R481). -/
def execPwrGood (s : State) : Out :=
  if !s.lands.bedrockPg || !s.lands.railEn || s.lands.pwrGood then .next s
  else if !s.lands.coreEn && (s.boot.starting || s.clocks.pkg == .waking true) then .next (s.updLands fun l => { l with coreEn := true })
  else
    let s1 := s.updLands fun l => { l with pwrGood := true }
    match s.clocks.pkg with
    | .waking false => .next s1.resumePs3
    | .waking true =>
      let s2 := { s1 with clocks := { s1.clocks with pkg := .run, ps := { s1.clocks.ps with entering := false } } }
      .next (s2.startAgain 1)
    | _ =>
      if s1.inStage 0 then
        let s2 := s1.endRecord { detail := (if s.boot.config.wholeOnly then 1 else 0) + s.boot.config.strapAddr.toNat * 2 }
        let s3 := s2.updBoot fun b => { b with startDue := true }
        .next (if s3.mayBoot then s3.beginS1 else s3)
      else if s1.boot.startDue && s1.mayBoot then .next s1.beginS1 else .next s1

/-- The package goes dark for a rail loss or a reset of the rails: both enables low. -/
def State.railsOff (s : State) : State := s.updLands fun l => { l with railEn := false, coreEn := false, pwrGood := false }

/-- Lose the contents of stacks whose rails fell (R135, R473). -/
def State.loseStacks (s : State) (hbm : BitVec 12) : State :=
  (List.finRange 12).foldl (fun s m =>
    if hbm.getLsbD m.val then s.updMc m fun x => { x with status := { x.status with state := 0, filled := false } } else s) s

/-- An unexpected fall of PWR_GOOD: DOWN with reason 1, both enables low, the fault log; mailboxes meet it as a chip
reset. A third loss within 10 minutes halts the package. During a power-up it starts over, during a trip the trip
governs (R473, R481). -/
def execRailLoss (hbm : BitVec 12) (s : State) : Out :=
  let s0 := s.loseStacks hbm
  if !s.lands.bedrockPg || !s.lands.railEn then .next s
  else if s.power.status.tripped then .next ((s0.updLands fun l => { l with pwrGood := false }).goDark)
  else if s.inStage 0 then
    let s1 := s0.railsOff
    .next { s1 with rcv := { s1.rcv with restartDue := true } }
  else if !s.lands.pwrGood then .next s
  else
    let times := s.rcv.railLosses.filter (fun t => decide ((s.time - t).toNat < 600000000000)) ++ [s.time]
    let s1 := s0.railsOff.updLands fun l => { l with lossAlert := true }
    let s2 := { s1 with rcv := { s1.rcv with
      railLosses := times, restartDue := true, faultLog := s1.rcv.faultLog ++ [(s.time, 0, 0)] } }
    let s3 := (s2.escalateChip 4).chipReset true none none
    let s4 := s3.updPower fun w => { w with gated := true }
    if times.length ≥ 3 then
      let s5 := s4.updBoot fun b => { b with starting := false, startDue := false, status := { b.status with halted := true } }
      .next { s5 with rcv := { s5.rcv with restartDue := false } }
    else .next s4

/-- At least 100 ms after a rail loss, RAIL_EN rises again (R473, R481). -/
def execRailLossRestart (s : State) : Out :=
  if !s.rcv.restartDue || !s.lands.bedrockPg then .next s
  else
    let s1 := s.updLands fun l => { l with railEn := true, coreEn := false, pwrGood := false }
    .next { s1 with rcv := { s1.rcv with restartDue := false } }

/-- BEDROCK_PG falls: everything above fuses and tray flash is lost; what stands outside the package stays (R205, R473,
R481). -/
def execBedrockLoss (s : State) : Out :=
  let r : State := {}
  .next { r with
    pending := s.pending, freeCtr := s.freeCtr, fuses := s.fuses, flash := s.flash,
    lands := { pkgResetN := s.lands.pkgResetN },
    power := { brakePin := s.power.brakePin, coolPin := s.power.coolPin },
    clocks := { clk := { refRack := s.clocks.clk.refRack, refPcieA := s.clocks.clk.refPcieA, refPcieB := s.clocks.clk.refPcieB },
                rt := { coarse := !s.clocks.clk.refRack } },
    fab := { links := s.fab.links.mapFinIdx fun i (x : Link) _ => Link.reset i x } }

/-- PKG_RESET_N is recognised asserted: a whole-package reset, without a dump; or released: S1 begins (R397, R401,
R415, R431, R476, R481). -/
def execPkgResetN (asserted : Bool) (s : State) : Out :=
  let s1 := s.updLands fun l => { l with pkgResetN := !asserted }
  if !s.lands.bedrockPg then .next s1
  else if asserted then
    if s.inStage 0 || s.rcv.restartDue || !s.lands.pkgResetN then .next s1
    else
      .next ((s1.escalateChip 4).chipReset true none none)
  else .next (if s1.boot.startDue && s1.mayBoot then s1.beginS1 else s1)

/-- CORE_EN falls 5 ms or more after a trip, and with the core rails the ports go dark (R2, R363, R472). -/
def execTripCoreEnRelease (s : State) : Out :=
  if s.power.status.tripped && s.lands.coreEn then .next ((s.updLands fun l => { l with coreEn := false }).goDark) else .next s

/-! ## S1 -/

/-- The boot control record at S1: a third start of a trial reverts, an earlier one is counted (R455, R462). -/
def State.bootTrial (s : State) : State :=
  let r := s.bootRec
  if !r.trial then s
  else if r.trialStarts = 2 then
    ((s.writeBoot { r with active := !r.active, trial := false }).eraseFormat (s.slotFormat r.active) (s.slotFormat (!r.active))).updBoot
      fun b => { b with revertDue := true }
  else s.writeBoot { r with trialStarts := r.trialStarts + 1 }

/-- What S1 reads besides the images: identity, keys, the life cycle, measurements (R439, R446, R464). -/
def State.readIdentity (s : State) : State :=
  let s1 := { s with mgmt := { s.mgmt with sec := { s.mgmt.sec with identityOk := s.flash.certKey == s.fuses.publicKey } } }
  ((s1.setMeasurement 1 (Config.measure 1 [])).showSec.measureLife).measureKeys

/-- The tray grants the flash: the boot ROM takes the boot control record and verifies the image of the active slot,
then once the other one; with neither the package halts (R386, R453, R455, R477). `slotsOk` says which images'
signatures and hashes hold. -/
def execFlashGnt (slotsOk : BitVec 2) (s : State) : Out :=
  if !s.inStage 1 || s.lands.flashReqN || s.boot.granted then .next s
  else
    let s1 := (s.updLands fun l => { l with flashGntN := false }).updBoot fun b => { b with granted := true }
    let s2 := s1.bootTrial.readIdentity
    let ok : Bool → Bool := fun b => slotsOk.getLsbD (slotIdx b).val && s2.slotFits b
    let s3 := ((s2.setSlotValid false (ok false)).setSlotValid true (ok true)).showTrial
    let a := s3.bootRec.active
    let boots : Bool → State := fun b => (s3.runImage b).updBoot fun x => { x with booted := true }
    if ok a then .next (boots a)
    else if ok (!a) then .next (boots (!a))
    else .next ((s3.haltStart { status := 0x0601, tested := 2 }).updLands fun l => { l with flashReqN := true, flashGntN := true })

/-- No grant within 5 ms: both slots fail (R456, R481). -/
def execFlashGrantTimeout (s : State) : Out :=
  if s.inStage 1 && !s.boot.granted then
    .next ((s.haltStart { status := 0x0601 }).updLands fun l => { l with flashReqN := true })
  else .next s

/-- S1 ends (R385, R386, R387, R422, R477). -/
def State.endS1 (s : State) (cpaOk : Bool) : State :=
  let fell := s.mgmt.fw.activeSlot != s.bootRec.active
  let cp := { s.rcv.cp with
    active := !cpaOk, token := if cpaOk then 0 else 1, cpaState := if cpaOk then 0 else 1, cpbState := if cpaOk then 0 else 3 }
  let s1 := ({ s with rcv := { s.rcv with cp := cp } }).updLands fun l => { l with flashReqN := true, flashGntN := true }
  (s1.endRecord {
    outcome := if fell || !cpaOk then 2 else 1, status := if fell then 0x0601 else 0,
    detail := (if s.mgmt.fw.activeSlot then 1 else 0) + (if cpaOk then 0 else 2) + s.mgmt.fw.svn.toNat * 4,
    tested := if fell then 2 else 1, good := 1 }).beginRecord 2

/-! ## S2 and S3 -/

/-- Core slots that the field defect log calls bad, as (cluster, slot), without repeats (R390, R391). -/
def State.loggedSlots (s : State) : List (Nat × Nat) :=
  ((s.flash.defects.filter fun e => e.checkOk && e.kind == 1 && decide (e.slot.toNat < 36)).map fun e =>
    (e.field.toNat * 8 + e.cluster.toNat, e.slot.toNat)).eraseDups

/-- Clusters that the field defect log calls bad (R390, R391). -/
def State.loggedClusters (s : State) : List Nat :=
  ((s.flash.defects.filter fun e => e.checkOk && e.kind == 2).map fun e => e.field.toNat * 8 + e.cluster.toNat).eraseDups

/-- Core slots marked bad in some masks. -/
def badCount (v : Vector (BitVec 36) 32) : Nat := sumNat (v.toList.map popCount)

/-- What S2 reads of the fuses: at a cold start the fuses themselves, of which it makes the shadow; else the shadow (R374, R382,
R385). -/
def State.fusesAtS2 (s : State) : Fuses := if s.boot.status.startKind = 0 then s.fuses else s.boot.shadow.getD s.fuses

/-- S2 ends: the fuse shadow is made, the defect map is merged (R374, R385 to R391, R400, R446). -/
def State.endS2 (s : State) (fusesOk : Bool) : State :=
  if !fusesOk then s.haltStart { status := 0x0203, tested := 1152 }
  else
    let f := s.fusesAtS2
    let slots := s.loggedSlots
    let clus := s.loggedClusters
    let bad := slots.foldl (fun (v : Vector (BitVec 36) 32) x => v.set (toFin 32 x.1) (setBit v[toFin 32 x.1] x.2 true)) f.badSlots
    let badClu := clus.foldl (fun (b : BitVec 32) c => setBit b c true) 0
    let disagree := (slots.filter fun x => !(f.badSlots[toFin 32 x.1]).getLsbD x.2).length
      + (clus.filter fun c => !f.retired.getLsbD c).length
    let n := badCount bad
    let s1 := (s.updBoot fun b => { b with
      shadow := some f, bad := bad, badClusters := badClu, config := { b.config with limitSet := f.limitSet },
      defects := { b.defects with disagree := satOf 16 disagree } }).measureLimits.showSec
    (s1.endRecord {
      outcome := if n + disagree = 0 then 1 else 2,
      detail := f.pageGroups.length % 65536 + min 65535 s.flash.defects.length * 65536,
      tested := 1152, good := 1152 - n, mappedOut := n, disagree := disagree }).beginRecord 3

/-- The reference that the PLLs take: rack, port A, port B, none (R370, R384). -/
def ClkStatus.choice (c : ClkStatus) : BitVec 2 := if c.refRack then 0 else if c.refPcieA then 1 else if c.refPcieB then 2 else 3

/-- S3 ends: PLLs locked, STEP 0, thermal cycle counts loaded, caps that waited applied (R364, R370, R385, R401,
R471). -/
def State.endS3 (s : State) : State :=
  let c := { s.clocks.clk with aclkLock := 15, nclkLock := true, cpLock := true, onWake := false, pllRef := s.clocks.clk.choice }
  let s1 := { s with clocks := { s.clocks with clk := c } }
  let s2 := s1.updPower fun w => { w with
    cycles := s.settings.cycles, gated := false, settings := [], move := none, freq := w.freqOf 0, volt := w.vreq 0,
    guard := { w.guard with hoursSinceTrim := s.settings.hours },
    status := { w.status with step := 0, target := 0, vfBusy := false } }
  let s3 := (s2.endRecord { detail := c.pllRef.toNat + (if s.boot.s3Hot then 4 else 0), tested := 6, good := 6 }).beginS4
  (s.power.settings.foldl State.applySetting (s3.pinsAct)).setLevels

/-- A try of S3 (R386). -/
def State.tryS3 (s : State) (pllOk hot : Bool) : State :=
  if pllOk && !hot then s.endS3
  else if s.lasted s.boot.s3Since 10000000000 then
    s.haltStart { status := if hot then 0x0501 else 0, detail := s.clocks.clk.choice.toNat + (if hot || s.boot.s3Hot then 4 else 0), tested := 6 }
  else s.updBoot fun b => { b with s3Since := b.s3Since.orElse fun _ => some s.time, s3Hot := b.s3Hot || hot }

/-- S3 is tried again (R386). -/
def execS3Retry (pllOk hot : Bool) (s : State) : Out :=
  if s.inStage 3 && s.boot.s3Since.isSome then .next (s.tryS3 pllOk hot) else .next s

/-! ## S4 and S5 -/

/-- The stack of a page's entry in the field defect log (R390). -/
def DefectEntry.pageStack (e : DefectEntry) : Option Nat := if e.checkOk && e.kind == 3 then some e.stack.toNat else none

/-- The rows of which the stacks' repairs are made, oldest first on each stack: a row is the places of its pages' entries
in the field defect log, and it is repaired where it holds the oldest entry of its stack that is still there (R128). -/
def repairedRows (log : List DefectEntry) (rows : List (List Nat)) : List (List Nat) :=
  rows.foldl (fun (done : List (List Nat)) row =>
    let left (st : Nat) : Option Nat :=
      ((log.zipIdx.filter fun x => x.1.pageStack == some st && !done.flatten.contains x.2).map (·.2)).head?
    match row.head?.bind fun i => (log[i]?).bind DefectEntry.pageStack with
    | none => done
    | some st =>
      if row.all (fun i => (log[i]?).bind DefectEntry.pageStack == some st) && (left st).any row.contains then done ++ [row]
      else done) []

/-- S4 ends: failed stacks, repaired rows, retirements reloaded; a fill of every stack leaves one live generation (R127,
R128, R135, R386, R387). -/
def State.endS4 (s : State) (saved failed : BitVec 12) (rows : List (List Nat)) : State :=
  let repaired := repairedRows s.flash.defects rows
  let counts := (List.range 12).map fun m => (repaired.filter fun r =>
    (r.head?.bind fun i => (s.flash.defects[i]?).bind DefectEntry.pageStack) == some m).length
  let defects := (s.flash.defects.zipIdx.filter fun x => !repaired.flatten.contains x.2).map (·.1)
  let fallback := s.settings.trainedStacks &&& ~~~saved &&& ~~~failed
  let s1 := { s with flash := { s.flash with defects := defects } }.writeSettings fun x => { x with trainedStacks := x.trainedStacks ||| ~~~failed }
  let stat : Fin 12 → McStatus → McStatus := fun m x => { x with
    state := if failed.getLsbD m.val then 0 else 2, failed := failed.getLsbD m.val, filled := !failed.getLsbD m.val }
  let s2 := (List.finRange 12).foldl (fun s m =>
    (s.updMc m fun x => { x with status := stat m x.status }).reloadPages m (counts.getD m.val 0)) s1
  let s3 := if s.boot.status.startKind = 0 ∨ s.boot.status.startKind = 1 ∨ s.boot.forced = true then s2.freshGens else s2
  let groups : BitVec 16 := satOf 16 s.fuses.pageGroups.length
  let s4 := s3.updBoot fun b => { b with
    needFill := 0, defects := { b.defects with pageGroups := groups } }
  (s4.endRecord {
    outcome := if failed = 0 ∧ fallback = 0 then 1 else 2, status := if failed = 0 then 0 else 0x0202,
    detail := saved.toNat + failed.toNat * 4096, tested := 12, good := 12 - popCount failed, mappedOut := popCount failed }).beginRecord 5

/-- Spares of a cluster that is not retired (R402). -/
def CluMap.spareCount (m : CluMap) : Nat := if m.retired then 0 else m.spares.toNat

/-- S5 ends: failing units are logged, the maps are built, SRAM is zero (R140, R387, R392 to R394, R402). -/
def State.endS5 (s : State) (slots : List (Nat × Nat)) (clusters : List Nat) : State :=
  let known : Nat → Bool := fun c => s.boot.badClusters.getLsbD c || s.fuses.retired.getLsbD c
  let fresh := (slots.filter fun x => decide (x.1 < 32) && decide (x.2 < 36) && !(s.boot.bad[toFin 32 x.1]).getLsbD x.2 && !known x.1).eraseDups
  let gone := (clusters.filter fun c => decide (c < 32) && !known c).eraseDups
  let tested := sumNat ((List.finRange 32).map fun c => if known c.val then 0 else 36 - popCount s.boot.bad[c])
  let s1 := fresh.foldl (fun s x => (s.logDefect (slotEntry 0 x.1 x.2)).updBoot
    fun b => { b with bad := b.bad.set (toFin 32 x.1) (setBit b.bad[toFin 32 x.1] x.2 true) }) s
  let s2 := gone.foldl (fun s c => ((s.logDefect (clusterEntry 0 c)).eventChip 0x0706 0 c).updBoot
    fun b => { b with badClusters := setBit b.badClusters c true }) s1
  let before := (List.finRange 32).filter fun c => known c.val
  let s3 := (List.finRange 32).foldl (fun s c => s.rebuildCluster (s.boot.status.startKind == 0) true c) s2
  let retired := (List.finRange 32).filter fun c => (s3.boot.maps[c]).retired
  let live := (List.finRange 32).filter fun c => !(s3.boot.maps[c]).retired
  let disagree := fresh.length + gone.length
  let n := badCount s3.boot.bad
  let d : DefectSummary := { s3.boot.defects with
    slotsBad := BitVec.ofNat 11 (sumNat (live.map fun c => popCount s3.boot.bad[c])),
    sparesLeft := BitVec.ofNat 11 (sumNat (s3.boot.maps.toList.map CluMap.spareCount)),
    clustersRetired := BitVec.ofNat 6 retired.length, disagree := satOf 16 (s3.boot.cairn[2].disagree.toNat + disagree) }
  let s4 := ({ s3 with sram := [], sramPoison := [], cores := [], qins := [], qouts := [] }).updBoot fun b => { b with defects := d }
  (s4.endRecord {
    outcome := if n + disagree + retired.length = 0 then 1 else 2, detail := retired.length - before.length, tested := tested,
    good := tested - fresh.length, mappedOut := n, disagree := disagree }).afterS5

/-! ## S6 to S9 -/

/-- Every enabled port has come through its first training attempt (R385). -/
def State.portsTried (s : State) : Bool :=
  s.fab.links.toList.all fun x => !x.ctrl.enable || !(x.status.state == 0 || (x.status.state == 1 && x.status.downCode == 0))

/-- S6 ends (R385 to R387). -/
def State.endS6 (s : State) : State :=
  let on := s.fab.links.toList.filter fun x => x.ctrl.enable
  let good := on.filter fun x => x.status.state == 3 || x.status.state == 2
  let up := sumNat ((List.finRange 20).map fun n => if (s.link n).status.state = 3 then 2 ^ n.val else 0)
  let status := if good.length = on.length then 0 else s.fab.lastDown
  (s.endRecord { outcome := if status = 0 then 1 else 2, status := status, detail := up, tested := on.length, good := good.length }).beginRecord 7

/-- S7 ends: the links that trained are up (R385 to R387). -/
def State.endS7 (s : State) (upA upB : Bool) : State :=
  let up : State → Bool → Bool → State := fun s host ok =>
    let i : Fin 2 := if host then 1 else 0
    if ok then { s with host := { s.host with ports := s.host.ports.set i { s.host.ports[i] with up := true } } } else s
  let s1 := up (up s false upA) true upB
  (s1.endRecord {
    detail := (if upA then 1 else 0) + (if upB then 2 else 0), tested := 2, good := (if upA then 1 else 0) + (if upB then 1 else 0) }).beginS8

/-- S8 ends: every partition's registers, clusters and capacity are set (R108, R143, R386, R387, R396). -/
def State.endS8 (s : State) : State :=
  let exist := (List.finRange 4).filter s.partExists
  let held := exist.filter fun p => !s.partRuns p
  let forced := s.boot.forced
  let s1 := exist.foldl (fun s p =>
    let s1 := s.applyStep p
    s1.updPart p fun q => { q with clusters := s1.liveClusters p, capacity := s1.capacityOf p }) s
  (s1.endRecord {
    outcome := if forced || !held.isEmpty then 2 else 1, status := if held.isEmpty then 0 else 0x0106,
    detail := s.host.layout.toNat + (if forced then 8 else 0) + sumNat (held.map fun p => 2 ^ (4 + p.val)),
    tested := exist.length, good := exist.length - held.length, mappedOut := held.length }).beginRecord 9

/-- S9 ends: READY; partitions leave reset; what waited for the start's end happens (R193, R385, R397, R437, R455). -/
def State.endS9 (s : State) : State :=
  let s1 := (s.endRecord {}).updBoot fun b => { b with starting := false, status := { b.status with ready := true } }
  let s2 := (List.finRange 4).foldl (fun s p => if s.partExists p then s.leaveReset p else s.setPartState p 3) s1
  let s3 := if s2.boot.revertDue then s2.revertEvent 1 else s2
  let s4 := match s3.boot.resetMb with
    | none => s3
    | some (mb, x) => (s3.setMailbox mb x).completeCmd mb 0 (if s3.boot.status.startKind = 2 then 1 else 0)
  let s5 := match s4.boot.resetMsg with
    | none => s4
    | some m => s4.respond 0x19 m 0 []
  (s5.updLands fun l => { l with lossAlert := false }).updBoot fun b => { b with revertDue := false, resetMb := none, resetMsg := none }

/-- A stage ends as found, and the next one begins; a stage that is not the running one, or that still waits, stays
(R385 to R387). -/
def execStageEnd (r : StageResult) (s : State) : Out :=
  match r with
  | .s0 => .next s
  | .s1 cpaOk => if s.inStage 1 && s.boot.booted then .next (s.endS1 cpaOk) else .next s
  | .s2 fusesOk => if s.inStage 2 then .next (s.endS2 fusesOk) else .next s
  | .s3 pllOk hot => if s.inStage 3 && s.boot.s3Since.isNone then .next (s.tryS3 pllOk hot) else .next s
  | .s4 saved failed repaired =>
    if s.inStage 4 && (s.boot.needFill &&& ~~~failed) == 0 then .next (s.endS4 saved failed repaired) else .next s
  | .s5 slots clusters => if s.inStage 5 then .next (s.endS5 slots clusters) else .next s
  | .s6 => if s.inStage 6 && s.portsTried then .next s.endS6 else .next s
  | .s7 upA upB => if s.inStage 7 then .next (s.endS7 upA upB) else .next s
  | .s8 => if s.inStage 8 && s.parts.toList.all (fun q => !q.genWait) then .next s.endS8 else .next s
  | .s9 => if s.inStage 9 then .next s.endS9 else .next s

/-! ## The output lands that follow from the state -/

/-- THERM_TRIP_N is low while TRIPPED is 1 (R476). -/
def State.thermTripN (s : State) : Bool := !s.power.status.tripped

/-- PKG_ALERT_N is low during a halt, while no command processor can run, and from a rail loss until S9 of the start that follows
(R476). -/
def State.pkgAlertN (s : State) : Bool := !(s.boot.status.halted || !s.cpRuns || s.lands.lossAlert)

/-- PKG_READY is high while READY is 1 (R476). -/
def State.pkgReady (s : State) : Bool := s.boot.status.ready

end Sys2Proof.Machine
end

