-- ==== Sys2Proof/Machine/ClockEvents.lean ====
section
/-! DEFINITION. Clock references, rack time, power states and waking as events (R369 to R384, R353). -/

namespace Sys2Proof.Machine

/-! ## References and rack time -/

/-- Change the clock state. -/
def State.updClocks (s : State) (f : Clocks → Clocks) : State := { s with clocks := f s.clocks }

/-- The rack reference shows no edge for 1 µs: time runs coarse, every UP port fails with reason 0 (R370, R372). -/
def execRackRefLoss (s : State) : Out :=
  if !s.clocks.clk.refRack then .next s
  else
    let s1 := s.updClocks fun c => { c with clk := { c.clk with refRack := false }, rt := { c.rt with coarse := true } }
    .next ((List.finRange 20).foldl (fun s n => if (s.link n).status.state = 3 then s.failPort n 0 else s) s1)

/-- The rack reference returns: the ports that are DOWN train again while firmware runs (R370, R372). -/
def execRackRefReturn (s : State) : Out :=
  let s1 := s.updClocks fun c => { c with clk := { c.clk with refRack := true }, rt := { c.rt with coarse := false } }
  if s.clocks.clk.refRack || !(s.fwLive && s.boot.status.ready && s.clocks.pkg == .run) then .next s1
  else .next ((List.finRange 20).foldl (fun s n =>
    if (s.link n).ctrl.enable && (s.link n).status.state == 4 then s.trainPort n else s) s1)

/-- Whether the reference that the PLLs take is present. -/
def ClkStatus.refPresent (c : ClkStatus) : Bool :=
  match c.pllRef.toNat with
  | 0 => c.refRack
  | 1 => c.refPcieA
  | 2 => c.refPcieB
  | _ => false

/-- Firmware moves the PLLs whose reference is lost to the next available one (R370). -/
def execPllRefSwitch (s : State) : Out :=
  if !s.fwLive || !s.clocks.clk.cpLock || s.clocks.clk.refPresent then .next s
  else .next (s.updClocks fun c => { c with clk := { c.clk with pllRef := c.clk.choice } })

/-- The bedrock clock is trimmed against the rack reference (R371). -/
def execBedrockTrim (s : State) : Out :=
  if s.clocks.clk.refRack then .next (s.updClocks fun c => { c with trimmed := true }) else .next s

/-- RACK_SYNC's period in nanoseconds (R373, R384). -/
def RtCtrl.period (c : RtCtrl) : Nat := max 1 c.periodMs.toNat * 1000000

/-- A RACK_SYNC edge: the armed load or the nearest multiple of the period; a lead is absorbed, a lag made up, the first
load exact (R373). Of two multiples equally near, the later is taken (DESIGN CHOICE, log 44). -/
def execRackSync (s : State) : Out :=
  if !s.clocks.clk.refRack then .next s
  else
    let c := s.clocks
    let now := s.time.toNat
    let per := c.ctrl.period
    let target := if c.ctrl.armLoad then c.load else BitVec.ofNat 64 ((now + per / 2) / per * per)
    let err : Int := (now : Int) - target.toNat
    let exact := c.ctrl.armLoad && !c.rt.locked
    let rt := { c.rt with
      locked := c.rt.locked || c.ctrl.armLoad, slip := c.rt.slip || decide (1000 < err) || decide (err < -1000),
      lastErr := satInt 32 err, pulses := c.rt.pulses + 1 }
    let s1 := s.updClocks fun c => { c with
      rt := rt, ctrl := { c.ctrl with armLoad := false }, absorb := if exact || decide (err ≤ 0) then 0 else err.toNat }
    .next { s1 with time := if exact || decide (err ≤ 0) then target else s.time }

/-! ## Entry to power states -/

/-- A partition's power state: 0 PS0, 1 PS1, 2 PS2, 3 held in reset or absent (R384). -/
def State.psOf (s : State) (p : PartNo) : Nat := bitsAt s.clocks.ps.partState.toNat (2 * p.val) 2

/-- The partitions in PS2 or deeper, whose entries the retention area holds (R378). -/
def State.atRest (s : State) : BitVec 4 := (List.finRange 4).foldl (fun b p => setBit b p.val (s.psOf p == 2)) 0

/-- A partition is idle (R376). -/
def State.partIdle (s : State) (p : PartNo) : Bool :=
  let q := s.part p
  q.stream.isNone && q.queue.isEmpty && (s.partCores p).all (fun k => (s.core p k).ctx.isNone)
    && q.clusters.all (fun c => (s.dma[toFin 32 c]).chans.toList.all fun x => x.state != 1 && x.state != 2 && x.state != 4)
    && s.power.trim.isNone
    && (partMailboxes p).all (fun mb => (s.mailbox mb).status.state != 1 && (s.mailbox mb).status.state != 2)

/-- Whether a partition may enter PS1 or PS2 at all: firmware runs, and the partition is not in a reset. -/
def State.mayRest (s : State) (p : PartNo) : Bool :=
  s.fwLive && s.boot.status.ready && s.clocks.pkg == .run && s.partLive p && (s.part p).reset.isNone && s.partIdle p

/-- A partition idle for PS1_IDLE_US enters PS1 (R375, R376). -/
def execPs1Entry (part : PartNo) (s : State) : Out :=
  if s.mayRest part && s.psOf part == 0 && s.clocks.psConfig.ps1IdleUs != 0 then .next (s.setPartState part 1) else .next s

/-- Whether a stack holds pages of a partition (R114). -/
def State.usesStack (s : State) (p : PartNo) (m : Fin 12) : Bool :=
  if s.memConfig.mode then s.partExists p else (s.fields p).contains (m.val / 3)

/-- Put stacks that no running partition uses into self-refresh, and bring the others back (R375, R382). -/
def State.restStacks (s : State) : State :=
  (List.finRange 12).foldl (fun s m =>
    let used := (List.finRange 4).any fun p => s.usesStack p m && s.psOf p < 2
    s.updMc m fun x =>
      if x.status.state = 2 ∧ used = false then { x with status := { x.status with state := 3 } }
      else if x.status.state = 3 ∧ used = true then { x with status := { x.status with state := 2 } } else x) s

/-- A partition idle for PS2_IDLE_MS enters PS2: its queues break, its rails are gated (R375, R378). -/
def execPs2Entry (part : PartNo) (s : State) : Out :=
  if !(s.mayRest part && s.psOf part < 2 && s.clocks.psConfig.ps2IdleMs != 0) then .next s
  else
    let s1 := s.noticePeers part
    let s2 := { s1 with
      qins := s1.qins.filter fun e => !keyOf part 8 e.1, qouts := s1.qouts.filter fun e => !keyOf part 8 e.1 }
    let s3 := s2.updPart part fun q => { q with state := 4, hostQs := Vector.replicate 16 {} }
    .next ((s3.setPartState part 2).restStacks)

/-- The conditions of R377 but for PS3_EN and the time. -/
def State.allResting (s : State) : Bool :=
  s.fwLive && s.boot.status.ready && s.clocks.pkg == .run
    && (List.finRange 4).all (fun p => !s.partExists p || (s.part p).state == 0 || s.psOf p == 2)
    && !s.fab.epoch.settling && s.power.trim.isNone
    && ([18, 19] : List (Fin 20)).all fun n => (s.link n).ctrl.standIn == 0x1F || (s.link n).status.state == 3

/-- The power controller's state that the retention list keeps (R378). -/
def Power.retained (w : Power) (f : Fuses) : Power :=
  let r := w.afterChipReset f
  { r with limits := w.limits, config := w.config, estimate := { r.estimate with k := w.estimate.k }, vmin := w.vmin,
           vf := vfTable w.vmin 45 0, guard := { r.guard with droopMv := w.guard.droopMv, stallLevel := w.guard.stallLevel },
           clu := w.clu.map fun x => { faulty := x.faulty },
           thm := { r.thm with faulty := w.thm.faulty }, rackForce := w.rackForce, validated := w.validated }

/-- A partition's registers at entry to PS3: those of the retention list and of bedrock SRAM stay, with its capacity and state; the
others take their chip-reset values (R374, R378; DEDUCED, log 57). -/
def Part.resting (q : Part) : Part :=
  { q.afterChipReset with
    state := q.state, clusters := q.clusters, bar2Base := q.bar2Base, evt := q.evt, capacity := q.capacity, genWait := q.genWait,
    dumpGenWait := q.dumpGenWait, poisonLog := q.poisonLog, sramCount := q.sramCount, strata := q.strata, energy := q.energy,
    records := q.records, lost := q.lost, held := q.held }

/-- Entry to PS3: ports send DOWN with reason 2, counts and retention list saved, stacks in self-refresh, the core rails
released (R272, R364, R378, R379). -/
def State.enterPs3 (s : State) : State :=
  let s1 := (List.finRange 20).foldl (fun s n => if (s.link n).status.state = 3 then s.emit n (.link (.down 2)) else s) s.saveCycles
  let s2 := (List.finRange 4).foldl (fun s p => s.clearUnits p true) s1.goDark
  let s3 := (List.finRange 4).foldl (fun s p => s.updPart p Part.resting) s2
  let clk := { s3.clocks.clk with aclkLock := 0, nclkLock := false, cpLock := false }
  let s4 := { s3 with
    power := s3.power.retained s3.fuses, clocks := { s3.clocks with pkg := .ps3, clk := clk },
    hbm := { s3.hbm with mcs := s3.hbm.mcs.map Mc.afterChipReset } }
  s4.updLands fun l => { l with coreEn := false }

/-- The package enters PS3 (R375, R377, R379). -/
def execPs3Entry (s : State) : Out :=
  if s.allResting && s.clocks.psConfig.ps3En && s.clocks.psConfig.ps3IdleMs != 0 then .next s.enterPs3 else .next s

/-- Entry to PS4 from PS3: stack rails off, PCIe links down, every stratum loses residence. The retention list serves PS2
and PS3 alone: what is not held in bedrock SRAM takes its chip-reset value (R10, R180, R374, R375, R378, R382, R472;
DEDUCED, log 57). -/
def State.enterPs4 (s : State) : State :=
  let s0 := s.coreRailReset
  let s1 := (List.finRange 12).foldl (fun s m => s.updMc m fun x => { x with status := { x.status with state := 0, filled := false } }) s0
  let s2 := (s1.resetPort false false).resetPort true false
  let links := s2.fab.links.mapFinIdx fun i (x : Link) _ => Link.reset i x
  ({ s2 with
    fab := { links := links, wire := s2.fab.wire }, host := { s2.host with mailboxes := [], chipEvt := {} },
    clocks := { s2.clocks with pkg := .ps4 } }).railsOff

/-- PS4_IDLE_S in PS3 (R375). -/
def execPs4Entry (s : State) : Out :=
  if s.clocks.pkg == .ps3 && s.clocks.psConfig.ps4IdleS != 0 then .next s.enterPs4 else .next s

/-! ## Waking -/

/-- A partition leaves PS1, or PS2 with its SRAM zeroed and what was retained restored. With the retention area lost, the
exit takes the path of a partition reset (R140, R378, R382, R404). -/
def State.wakePart (s : State) (p : PartNo) : State :=
  let s0 := s.updPower fun w => { w with trim := none }
  if s.psOf p = 1 then s0.setPartState p 0
  else if s.psOf p = 2 then
    let s1 := ((s0.clearUnits p true).updPart p fun q => { q with state := 2 }).setPartState p 0
    let s2 := s1.restStacks
    if s.rcv.retentionLost.getLsbD p.val then
      let s3 := { s2 with rcv := { s2.rcv with retentionLost := setBit s2.rcv.retentionLost p.val false } }
      (s3.updPart p fun q => { q with reset := some { level := 3, trigger := 0x0203 } }).startDrain p none [] false
    else s2
  else s

/-- Whether a wake source is enabled, and its WAKE_SRC (R381, R384). -/
def State.wakeCode (s : State) : WakeSrc → Option (BitVec 3)
  | .wake0 => if s.clocks.wake.wake0En then some 1 else none
  | .wake1 => if s.clocks.wake.wake1En then some 2 else none
  | .pcieA => if s.clocks.wake.pcieEn then some 3 else none
  | .pcieB => if s.clocks.wake.pcieEn then some 4 else none
  | .management => if s.clocks.wake.mgmtEn then some 5 else none
  | .deadline => some 6
  | .work _ => none

/-- The package leaves PS3 or PS4: its rails are requested; it goes on at PWR_GOOD (R382, R384). -/
def State.wakePackage (s : State) (code : BitVec 3) : State :=
  let ps4 := s.clocks.pkg == .ps4
  let s1 := s.updClocks fun c => { c with
    pkg := .waking ps4, clk := { c.clk with onWake := !ps4 }, ps := { c.ps with wakeSrc := code, wakes := satInc c.ps.wakes } }
  if ps4 then s1.updLands fun l => { l with railEn := true, coreEn := false, pwrGood := false }
  else s1.updLands fun l => { l with coreEn := true, pwrGood := false }

/-- A wake source: work for a partition in PS1 or PS2, or a source for a package in PS3 or PS4; a wake during a start is recorded
in WAKE_SRC, and the start continues (R381, R384, R401; DEDUCED, log 57). -/
def execWake (src : WakeSrc) (s : State) : Out :=
  match src with
  | .work p => if s.clocks.pkg == .run && s.fwLive then .next (s.wakePart p) else .next s
  | src => match s.wakeCode src with
    | none => .next s
    | some code =>
      if s.clocks.pkg == .ps3 || s.clocks.pkg == .ps4 then .next (s.wakePackage code)
      else if s.boot.starting then .next (s.updClocks fun c => { c with ps := { c.ps with wakeSrc := code } })
      else .next s

end Sys2Proof.Machine
end

