-- ==== Sys2Proof/Machine/DumpOps.lean ====
section
/-! DEFINITION. Dumps: their records, their slots, what is written (R415 to R421). -/

namespace Sys2Proof.Machine

/-- Bytes of a dump slot (R416). -/
def dumpSlotSize : Nat := 0x4000000

/-- A record of a dump: KIND, UNIT, OFFSET, LENGTH, and whether it lies above the core's listed 64 KiB (R417, R418,
R420). -/
structure DumpRec where
  kind : Nat
  unit : Nat
  offset : Nat
  length : Nat
  excess : Bool := false

/-- An entry of a dump list obeys R418. -/
def listEntryOk (w : Nat) : Bool :=
  let core := bitsAt w 0 10
  let off := bitsAt w 32 24
  let len := bitsAt w 64 24
  w == core + off * 2 ^ 32 + len * 2 ^ 64 && off % 64 == 0 && len % 64 == 0 && decide (off + len ≤ 0x200000)

/-- The dump list of the current stratum that firmware reads: its entries that obey R418 (R225, R418). -/
def State.dumpList (s : State) (p : PartNo) : List Nat :=
  match s.current p with
  | none => []
  | some t => (List.range ((t.len - 256) / 16)).filterMap fun i =>
      let a := t.addr + 256 + 16 * i
      let w := s.stackNat p a 16
      if s.stackPoisoned p a 16 || !listEntryOk w then none else some w

/-- The ranges that a dump list gives a core, in list order, with those above 64 KiB marked (R418). -/
def coreRanges (used : Bool) (k : Nat) (ws : List Nat) : List DumpRec :=
  (ws.foldl (fun (a : List DumpRec × Nat) w =>
    let core := bitsAt w 0 10
    let len := bitsAt w 64 24
    if core = k ∨ (core = 0x3FF ∧ used = true) then
      (a.1 ++ [{ kind := 3, unit := k, offset := bitsAt w 32 24, length := len, excess := decide (65536 < a.2 + len) }], a.2 + len)
    else a) ([], 0)).1

/-- The records of a dump of some cores, in order (R417). -/
def State.dumpRecs (s : State) (p : PartNo) (cores : List (Fin 1024)) : List DumpRec :=
  let clusters := (cores.map fun k => k.val / 32).eraseDups
  let ws := s.dumpList p
  let used := match s.current p with
    | none => []
    | some t => t.cores
  clusters.map (fun l => { kind := 0, unit := l, offset := 0, length := 1024 })
    ++ (cores.map fun k =>
      [{ kind := 1, unit := k.val, offset := 0, length := 128 }, { kind := 2, unit := k.val, offset := 0, length := 1024 },
       { kind := 3, unit := k.val, offset := 0, length := 4096 }] ++ coreRanges (used.contains k) k.val ws).flatten

/-- The cores that a dump covers: an engine reset's one core, else all of the partition (R415). -/
def State.dumpCores (s : State) (p : PartNo) (d : Dump) : List (Fin 1024) :=
  if d.level = 2 then [toFin 1024 d.core.toNat] else s.partCores p

/-- Two records are of one core or of one cluster (R419). -/
def DumpRec.sameUnit (a b : DumpRec) : Bool := a.unit == b.unit && ((a.kind == 0) == (b.kind == 0))

/-- STATUS of each record but for the size of the slot (R418, R419). -/
def dumpMarks (recs : List DumpRec) (marks : List (Nat × Nat)) : List (DumpRec × Nat) :=
  recs.zipIdx.map fun x =>
    let late := marks.any fun m => m.2 == 1 && decide (m.1 ≤ x.2) && (match recs[m.1]? with
      | some r => r.sameUnit x.1
      | none => false)
    let budget := marks.any fun m => m.2 == 2 && decide (m.1 ≤ x.2)
    (x.1, if x.1.excess then 3 else if late then 1 else if budget then 2 else 0)

/-- Where each record lies in its slot and its final STATUS; records that find no place are not written (R419, R420). -/
def dumpPlaces (rs : List (DumpRec × Nat)) : List (DumpRec × Nat × Nat) :=
  (rs.foldl (fun (a : List (DumpRec × Nat × Nat) × Nat) r =>
    let fits := decide (a.2 + 64 + r.1.length ≤ dumpSlotSize)
    let st := if r.2 = 0 ∧ fits = false then 3 else r.2
    if a.2 + 64 > dumpSlotSize then a
    else (a.1 ++ [(r.1, st, a.2)], a.2 + 64 + (if st = 0 then r.1.length else 0))) ([], 4096)).1

/-- A dump record's header (R420). -/
def DumpRec.header (r : DumpRec) (status : Nat) : List Byte :=
  bytesOfNat 64 (packFields (n := 512) [(0, 4, r.kind), (4, 4, status), (8, 10, r.unit), (32, 32, r.offset), (64, 32, r.length),
    (96, 32, if status = 0 then r.length else 0)]).toNat

/-- Write a record's data; a poisoned line is written poisoned (R417, R419). -/
def State.writeDumpData (s : State) (p : PartNo) (a : Nat) (r : DumpRec) : State :=
  match r.kind with
  | 0 => s.stackWrite p a ((s.dma[s.cluster p r.unit]).block) false
  | 1 => s.stackWrite p a (s.coreBlock p (toFin 1024 r.unit)) false
  | 2 => s.stackWrite p a (s.queueBlock p (toFin 1024 r.unit)) false
  | _ => (List.range (r.length / 64)).foldl (fun s i =>
      let key := s.spaceAt p 1 r.unit (r.offset + 64 * i)
      s.stackWrite p (a + 64 * i) (Mem.read s.sram key 64) (s.sramPoisoned key 64)) s

/-- A dump's header (R420). -/
def Dump.header (d : Dump) (bytes records unreadable : Nat) (tEnd : Word) : List Byte :=
  bytesOfNat 4096 (packFields (n := 512) [(0, 32, 0x504D5544), (32, 8, 1), (40, 3, d.level.toNat), (64, 16, d.trigger.toNat),
    (80, 10, d.core.toNat), (96, 32, bytes), (128, 64, d.start.toNat), (192, 64, tEnd.toNat), (256, 48, d.seq.toNat),
    (320, 16, records), (336, 16, unreadable)]).toNat

/-- Write a dump's records and its final header (R417 to R420). -/
def State.writeDump (s : State) (p : PartNo) (d : Dump) : State × Bool :=
  let base := d.slot.toNat * dumpSlotSize
  let rs := dumpPlaces (dumpMarks (s.dumpRecs p (s.dumpCores p d)) d.marks)
  let s1 := rs.foldl (fun s r =>
    let h := s.stackWrite p (base + r.2.2) (r.1.header r.2.1) false
    if r.2.1 = 0 then h.writeDumpData p (base + r.2.2 + 64) r.1 else h) s
  let bytes := 4096 + sumNat (rs.map fun r => 64 + (if r.2.1 = 0 then r.1.length else 0))
  let bad := (rs.filter fun r => r.2.1 != 0).length
  (s1.stackWrite p base (d.header bytes rs.length bad s.time) false, bad != 0)

/-- DUMP_TAKEN in the partition's log, and for a chip reset in the chip log (R421). -/
def State.dumpEvent (s : State) (p : PartNo) (detail : Nat) : State :=
  let s1 := s.eventPart p 0x0707 detail
  if s.rcv.chip.isSome then s1.eventChip 0x0707 p.val detail else s1

/-- A partition's dump is over or not taken: the reset that waited for it goes on (R411, R412, R415). -/
def State.afterDump (s : State) (p : PartNo) : State :=
  match s.rcv.chip with
  | some r => ({ s with rcv := { s.rcv with chip := some { r with dumped := setBit r.dumped p.val true } } }).tryChipReset
  | none => match (s.part p).reset with
    | none => s
    | some r =>
      if r.draining then s
      else if r.level = 2 then s.startEngineReset p r.trigger
      else s.startDrain p (if r.trigger = 0x0705 then none else some r.trigger) r.mbs r.owner.isSome

/-- What a dump of a partition is taken for: level, trigger, core; none when none is due (R415, R420). -/
def State.dumpCause (s : State) (p : PartNo) : Option (BitVec 3 × Code × BitVec 10) :=
  match s.rcv.chip with
  | some r => if (s.dumpsDue r).contains p then some (4, s.rcv.status.lastCode, 0x3FF) else none
  | none => match (s.part p).reset with
    | none => none
    | some r => if r.draining then none else some (r.level, r.trigger, r.core)

/-- The lowest dump slot that holds none (R416). -/
def PartRcv.freeSlot (r : PartRcv) : Option Nat := firstBelow 4 fun i => !r.dumpSlots.getLsbD i

/-- A dump begins in a slot: it is held from now on, and its header is written with T_END zero (R416, R420). -/
def State.beginDump (s : State) (p : PartNo) (slot : Nat) (c : BitVec 3 × Code × BitVec 10) : State :=
  let seq := match (s.part p).stream with
    | none => 0
    | some x => x.seq
  let d : Dump := { slot := BitVec.ofNat 2 slot, level := c.1, trigger := c.2.1, core := c.2.2, start := s.time, seq := seq }
  let s1 := s.updPart p fun q => { q with
    dump := some d, dumpHeld := true,
    rcv := { q.rcv with dumpSlots := setBit q.rcv.dumpSlots slot true, latestSlot := BitVec.ofNat 2 slot } }
  s1.stackWrite p (slot * dumpSlotSize) (d.header 4096 0 0 0) false

/-- No slot is free: the dump is not taken; its event's slot is unstated, so free (R416, R421; log 8). -/
def State.skipDump (s : State) (p : PartNo) : State :=
  let s1 := s.updPart p fun q => { q with rcv := { q.rcv with skipped := satInc q.rcv.skipped } }
  ((s1.dumpEvent p (4 + Config.freeNat s.freeCtr % 4)).bump).afterDump p

end Sys2Proof.Machine
end

