-- ==== Sys2Proof/Machine/LifeOps.lean ====
section
/-! DEFINITION. A change of the life-cycle state as an operation (R448 to R450). -/

namespace Sys2Proof.Machine

/-- The fuses after a transition (R449): the owner key fused in the next slot, the owner slot revoked, the key engine
disabled. -/
def Fuses.change (f : Fuses) (target : BitVec 3) (key : BitVec 256) : Fuses :=
  let f1 := { f with lifecycle := target }
  if target = 2 then
    { f1 with ownerKeys := f.ownerKeys.set (toFin 4 f.ownerSlotsUsed.toNat) key, ownerSlot := BitVec.ofNat 2 f.ownerSlotsUsed.toNat,
              ownerSlotsUsed := f.ownerSlotsUsed + 1 }
  else if target = 3 then { f1 with ownerRevoked := setBit f.ownerRevoked f.ownerSlot.toNat true }
  else if target = 4 then { f1 with keyEngine := false }
  else f1

/-- Every partition has been reset: the fuses are written, the stores erased where R449 says so, measurement 4
replaced, and only then the response is sent (R450). -/
def State.finishChange (s : State) (target : BitVec 3) (msg : Bool × BitVec 32 × BitVec 64) (key : BitVec 256) : State :=
  let erase := s.fuses.lifecycle == 2
  let s1 := { s with fuses := s.fuses.change target key }
  let s2 := if erase then
      { s1 with flash := { s1.flash with keys := Vector.replicate 3 none, licences := Vector.replicate 16 none } }
    else s1
  let s3 := { s2 with mgmt := { s2.mgmt with change := none, sec := { s2.mgmt.sec with debugOpen := false } } }
  (s3.measureLife.showSec).respond 0x35 msg 0 []

/-- A partition of a life-cycle change has been reset; the last one ends the change (R450). -/
def State.changeStep (s : State) (p : PartNo) : State :=
  match s.mgmt.change with
  | none => s
  | some (target, msg, left, key) =>
    let left1 := setBit left p.val false
    if left1 = 0 then s.finishChange target msg key
    else { s with mgmt := { s.mgmt with change := some (target, msg, left1, key) } }

/-- A life-cycle change begins: every partition that exists is reset, both generations advance; one that is held in reset
stays so and only advances (R131, R412, R450). The dumps' TRIGGER is unstated, so free (log 8). -/
def State.beginChange (s : State) (target : BitVec 3) (msg : Bool × BitVec 32 × BitVec 64) (key : BitVec 256) : State :=
  let exist := (List.finRange 4).filter s.partExists
  let mask := exist.foldl (fun (b : BitVec 4) p => setBit b p.val true) 0
  let trigger : Code := freeCode s.freeCtr
  let s1 := { s.bump with mgmt := { s.mgmt with change := some (target, msg, mask, key) } }
  exist.foldl (fun s p =>
    if (s.part p).state = 0 then
      let a := s.advanceFor p true
      if a.2 then a.1.changeStep p else a.1
    else s.resetPart p { level := 3, trigger := trigger, both := true } none) s1

end Sys2Proof.Machine
end

