-- ==== Sys2Proof/Machine/RecoveryEvents.lean ====
section
/-! DEFINITION. Recovery as events: watchdogs, overruns, dumps, the steps of partition resets (R131, R135, R404 to R421,
R431). -/

namespace Sys2Proof.Machine

/-! ## Watchdogs -/

/-- No stream advance for CTX_WD_MS while a context of the stream runs: every context of the stream aborts (R405, R408). -/
def execContextWatchdog (part : PartNo) (s : State) : Out :=
  match (s.part part).stream with
  | none => .next s
  | some x =>
    if s.fwLive && s.partLive part && x.ending.isNone && (s.partCores part).any (fun k => (s.core part k).ctx.isSome) then
      .next (s.failStream part 0x0703)
    else .next s

/-- A stream that is ending for a context hang ends with the engine's code when both watchdogs meet (R431). -/
def State.preferStall (s : State) (p : PartNo) : State :=
  s.updStream p fun x => { x with ending := if x.ending = some 0x0703 then some 0x0704 else x.ending }

/-- No product issued for ENG_WD_MS while the wave is enabled: an engine reset of the core (R405, R408, R411, R431). -/
def execEngineWatchdog (part : PartNo) (core : Fin 1024) (s : State) : Out :=
  let c := s.core part core
  if s.fwLive && s.partLive part && (s.part part).reset.isNone && !c.mms.isEmpty && !c.lost && s.coreEnabled part core then
    .next ((s.preferStall part).level2 part core 0x0704)
  else .next s

/-- Firmware polls a partition's clusters: `answers` says which answered, by logical number (R405). -/
def execPartitionPoll (part : PartNo) (answers : BitVec 32) (s : State) : Out :=
  if !(s.fwLive && s.partLive part) then .next s
  else
    let silent := (s.part part).clusters.zipIdx.foldl (fun (b : BitVec 32) x => setBit b x.1 (!answers.getLsbD x.2)) s.rcv.silent
    .next { s with rcv := { s.rcv with silent := silent } }

/-- A cluster of a running partition has not answered for PART_WD_MS: it is lost, its partition is reset (R395, R405,
R408, R413). -/
def execPartitionWatchdog (part : PartNo) (cluster : Fin 32) (s : State) : Out :=
  if !(s.fwLive && s.partLive part && s.rcv.silent.getLsbD cluster.val && (s.part part).clusters.contains cluster.val) then .next s
  else
    let s1 := { s with rcv := { s.rcv with silent := setBit s.rcv.silent cluster.val false } }
    .next ((s1.loseCluster part cluster).level3 part 0x0701 (2 ^ 28 + cluster.val))

/-! ## Overruns -/

/-- A partition reset did not end within its bound: the partition is held in reset, its commands end, both owners are
told (R408, R412, R413). -/
def State.holdPart (s : State) (p : PartNo) (r : ResetReq) : State :=
  let s1 := (s.updPart p fun q => { q with state := 0, reset := none, held := true, dump := none }).setPartState p 3
  let s2 := (s1.eventPart p 0x0701 (2 ^ 29 + p.val)).eventChip 0x0701 p.val (2 ^ 29 + p.val)
  r.mbs.foldl (fun s mb => s.completeCmd mb 0x0701 0) s2

/-- A level overran its bound (R408): an engine reset of a core becomes a partition reset and the core is lost; a context
abort becomes an engine reset; a partition reset leaves its partition held. -/
def execEscalationOverrun (part : PartNo) (core : Option (Fin 1024)) (s : State) : Out :=
  if !s.fwLive then .next s
  else match core, (s.part part).reset with
    | some k, some r =>
      if r.level = 2 ∧ r.draining = true ∧ r.core.toNat = k.val then
        .next ((s.loseSlot part k).level3 part r.trigger (k.val + part.val * 1024))
      else .next s
    | some k, none =>
      if s.partLive part && (s.core part k).aborting then
        let code := match (s.part part).stream with
          | none => 0x0705
          | some x => x.ending.getD 0x0705
        .next (s.level2 part k code)
      else .next s
    | none, some r => if r.level = 3 ∧ r.draining = true then .next (s.holdPart part r) else .next s
    | none, none => .next s

/-! ## Dumps -/

/-- A dump that is due begins, or is not taken for want of a slot; where none is due any more, a chip reset that waited
for it goes on (R415 to R417). -/
def execDump (part : PartNo) (s : State) : Out :=
  if !s.fwLive || (s.part part).dump.isSome then .next s
  else match s.dumpCause part with
    | none => .next s.tryChipReset
    | some c =>
      if !s.rcv.config.dumpEn then .next (s.afterDump part)
      else match (s.part part).rcv.freeSlot with
        | none => .next (s.skipDump part)
        | some i => .next (s.beginDump part i c)

/-- Mark a running dump. -/
def State.markDump (s : State) (p : PartNo) (record status : Nat) : State :=
  s.updPart p fun q => { q with dump := q.dump.map fun d => { d with marks := d.marks ++ [(record, status)] } }

/-- A debug-ring read has no answer for 1 ms: its record and the later ones of its unit are unreadable (R30, R419). -/
def execDebugReadTimeout (part : PartNo) (record : Nat) (s : State) : Out :=
  if s.fwLive then .next (s.markDump part record 1) else .next s

/-- DUMP_BUDGET_MS is over: the records from `record` on are unreadable (R419). -/
def execDumpBudgetExpiry (part : PartNo) (record : Nat) (s : State) : Out :=
  if s.fwLive then .next (s.markDump part record 2) else .next s

/-- A dump ends: its records and header stand in the slot, DUMP_TAKEN is logged, the reset goes on (R417 to R421). -/
def execDumpEnd (part : PartNo) (s : State) : Out :=
  match (s.part part).dump with
  | none => .next s
  | some d =>
    if !s.fwLive then .next s
    else
      let w := s.writeDump part d
      let s1 := w.1.updPart part fun q => { q with dump := none }
      .next ((s1.dumpEvent part (d.slot.toNat + (if w.2 then 8 else 0))).afterDump part)

/-! ## Partition resets -/

/-- Nothing of a partition is on its way over the mesh (R29). -/
def State.drained (s : State) (p : PartNo) : Bool :=
  (s.mesh.all fun r => r.part != p) && s.words.all fun w => w.1.dpart != BitVec.ofNat 2 p.val

/-- Whether a partition's reset drains its mesh. -/
def State.draining (s : State) (p : PartNo) : Bool :=
  match (s.part p).reset with
  | none => false
  | some r => r.level == 3 && r.draining

/-- A resetting partition's mesh has drained: GEN advances and the reset ends; the last partition of a layout change lets
the full fill begin (R131, R135, R412, R450). -/
def execMeshDrainDone (part : PartNo) (s : State) : Out :=
  if !s.fwLive || !s.draining part || !s.drained part || (s.part part).genWait || (s.part part).dumpGenWait then .next s
  else match s.host.layoutMove with
    | some (mb, code, done, false) =>
      let done1 := setBit done part.val true
      let s1 := { s with host := { s.host with layoutMove := some (mb, code, done1, false) } }
      .next (if (List.finRange 4).all fun p => !s.partExists p || done1.getLsbD p.val then s1.beginFill mb code else s1)
    | some _ => .next s
    | none =>
      let both := match (s.part part).reset with
        | none => false
        | some r => r.both
      let a := s.advanceFor part both
      .next (if a.2 then (a.1.finishReset part).changeStep part else a.1)

/-- A generation advance that waited proceeds once the sweep has ended, and with it the reset; GEN waits for the
partition's sweep, DUMP_GEN for that of the dump area; in a running package while firmware serves (R131, R132, R431). -/
def execGenAdvanceDeferred (part : PartNo) (s : State) : Out :=
  let q := s.part part
  let gen := q.genWait && (nextGen q.gen.gen q.gen.live).isSome
  let dump := q.dumpGenWait && q.dumpSweep.isNone
  if (!gen && !dump) || (s.boot.status.ready && !s.fwLive) then .next s
  else
    let s1 := if gen then s.advanceGen part else s
    let s2 := if dump then s1.advanceDumpGen part else s1
    if (s2.part part).genWait || (s2.part part).dumpGenWait then .next s2
    else .next (if s2.draining part then (s2.finishReset part).changeStep part else s2.changeStep part)

/-- A stack's full fill ends; the last one of a layout change ends the change (R135, R386, R396). -/
def execFullFillEnd (stack : Fin 12) (s : State) : Out :=
  if !s.boot.needFill.getLsbD stack.val then .next s
  else .next ((s.fillStack stack).updBoot fun b => { b with needFill := setBit b.needFill stack.val false }).endFill

/-! ## Bedrock SRAM -/

/-- The highest sequence number not above JNL_LAST whose journal slot is `i` (R201, R404). -/
def seqAtSlot (last : BitVec 48) (i : Nat) : BitVec 48 := last - BitVec.ofNat 48 ((last.toNat + 4096 - i) % 4096)

/-- SEQ of a journal entry that firmware rewrites; while JNL_LAST is below the slot no such number exists, so it is free
(R404; log 8). -/
def State.lostSeq (s : State) (i : Nat) : BitVec 48 :=
  if i ≤ s.host.lastSeq.toNat then seqAtSlot s.host.lastSeq i else BitVec.ofNat 48 (Config.freeNat s.freeCtr)

/-- An uncorrectable error in bedrock SRAM (R404). -/
def execBedrockSramError (line : BedrockLine) (s : State) : Out :=
  if !s.lands.bedrockPg then .next s
  else match line with
  | .journal i =>
    let e : JEntry := { seq := s.lostSeq i.val, state := 4, result := 0x0203 }
    .next (({ s.bump with host := { s.host with journal := Table.set {} s.host.journal i.val e } }).eventChip 0x0203 0 i.val)
  | .register o => .next (s.eventChip 0x0203 0 (2 ^ 28 + o.toNat))
  | .retention o =>
    .next (({ s with rcv := { s.rcv with retentionLost := s.rcv.retentionLost ||| s.atRest } }).eventChip 0x0203 0 (2 ^ 29 + o.toNat))

end Sys2Proof.Machine
end

