-- ==== Sys2Proof/Machine/CpEvents.lean ====
section
/-! DEFINITION. The command processor pair as events: switch-over, the end of a gap or of an activation's pause, self-tests,
handback (R405, R422 to R428, R459, R462). -/

namespace Sys2Proof.Machine

/-- Change CP_STATUS. -/
def State.updCp (s : State) (f : CpStatus → CpStatus) : State := { s with rcv := { s.rcv with cp := f s.rcv.cp } }

/-- The two outcomes of an activation that its sender sees: DONE in the mailbox, or the response (R437, R458). -/
def State.endActivate (s : State) (a : Activation) (code : Code) (detail : Nat) : State :=
  let s1 := match a.mb with
    | none => s
    | some mb => s.completeCmd mb code detail
  match a.msg with
  | none => s1
  | some m => s1.respond 0x33 m code (if code = 0 then [BitVec.ofNat 64 detail] else [])

/-- An activation that was not closed in time is reverted with cause 2: the old image stands, the record says so (R459,
R462). The command, carried on by CP-B on the old image, is refused for the switch-over once the gap has ended (R193, R425,
R458). -/
def State.dropActivation (s : State) : State :=
  match s.mgmt.activation with
  | none => s
  | some a =>
    let s1 := ((s.writeBoot { s.bootRec with active := !a.slot, trial := false }).runImage (!a.slot)).eraseFormat
      (s.slotFormat a.slot) (s.slotFormat (!a.slot))
    { s1.showTrial with mgmt := { s1.showTrial.mgmt with activation := none, dropped := some a } }

/-- After the gap, CP-B posts what became of an activation that the switch-over cut off (R193, R462). -/
def State.postDropped (s : State) : State :=
  match s.mgmt.dropped with
  | none => s
  | some a => ({ s with mgmt := { s.mgmt with dropped := none } }.endActivate a 0x0103 0).revertEvent 2

/-- A switch-over begins: CP-A is held, the token passes to neither, the power controller stalls, every mailbox reads
SERVICE 1 (R193, R423, R425). -/
def State.beginGap (s : State) : State :=
  let s1 := s.updCp fun c => { c with token := 2, cpaState := 1, cpbState := 2, switchovers := satInc c.switchovers }
  let s2 := { s1 with
    host := { s1.host with service := 1 }, rcv := { s1.rcv with gapAt := some s.time, recent := s.rcv.recent ++ [s.time] } }
  (s2.dropActivation).stallPower

/-- No command processor can run: SERVICE stays 1 and 0x0701 names the one that failed (R413, R414, R431). -/
def State.noCp (s : State) (cpB : Bool) : State :=
  let s1 := s.updCp fun c => if cpB then { c with token := 2, cpbState := 4 } else { c with token := 2, cpaState := 1 }
  let s2 := { s1 with host := { s1.host with service := 1 }, rcv := { s1.rcv with gapAt := none } }
  (s2.stallPower).eventChip 0x0701 0 (3 * 2 ^ 28 + (if cpB then 1 else 0))

/-- CP-A may hand over to CP-B: it is active and no self-test has found CP-B unhealthy (R423, R428, R430; log 62). -/
def State.maySwitch (s : State) : Bool := !s.rcv.cp.active && s.rcv.cp.cpaState == 0 && !s.rcv.cpbFailed

/-- The command processors work: the package runs and one of them can run. -/
def State.cpOn (s : State) : Bool := s.boot.status.ready && s.clocks.pkg == .run && s.cpRuns

/-- The CP watchdog fires: switch-over; during a gap CP-B has failed its boot; with no CP to take over none runs (R405,
R423, R430, R431). -/
def execCpWatchdog (s : State) : Out :=
  if !s.cpOn then .next s
  else if s.rcv.gapAt.isSome then .next (s.noCp true)
  else if s.maySwitch then .next s.beginGap
  else .next (s.noCp s.rcv.cp.active)

/-- CP-A reports an uncorrectable error in its own memory: switch-over at once, during a handback as well (R423, R431). -/
def execCpUncorrected (s : State) : Out :=
  if !s.cpOn || s.rcv.gapAt.isSome then .next s
  else if s.rcv.cp.cpaState = 4 ∨ s.maySwitch = true then .next s.beginGap
  else if s.rcv.cp.active then .next s
  else .next (s.noCp false)

/-- Firmware serves a partition again: what waited goes on (R193, R243, R426). -/
def State.resumeFw (s : State) (p : PartNo) : State :=
  let s1 := match (s.part p).stream with
    | none => s
    | some x => match x.failDue with
      | none => s
      | some code => (s.updStream p fun y => { y with failDue := none }).failStream p code
  (((s1.postAll p).advanceBarriers p).launchReady p).settleEnd p

/-- Firmware serves again. -/
def State.resumeAll (s : State) : State := ((List.finRange 4).foldl State.resumeFw s).endFill

/-- CP_SWITCHING in the chip log and every partition's log, with the firing time and the gap in µs (R425). -/
def State.switchEvents (s : State) (at_ : Word) (us : Nat) : State :=
  let s1 := ({ s with time := at_ }).eventChip 0x0702 0 us
  let s2 := ((List.finRange 4).filter s.partExists).foldl (fun s p => s.eventPart p 0x0702 us) s1
  { s2 with time := s.time }

/-- CP_STATUS once CP-B serves after a gap of some µs (R425, R428). -/
def CpStatus.taken (c : CpStatus) (us : Nat) (retired : Bool) : CpStatus :=
  { c with active := true, token := 1, cpbState := 3, lastGapUs := satOf 12 us, cpaState := if retired then 3 else 1 }

/-- A second switch-over within a trial reverts it (R462). -/
def State.revertSwitched (s : State) : State :=
  if s.mgmt.trial.trial && Nat.ble 2 s.mgmt.trialSwitches && s.boot.status.ready then s.revert 0 else s

/-- CP-B serves: the gap is over, a trial's 120 s restart (R425, R460). -/
def State.serveAgain (s : State) (us : Nat) : State :=
  let more := if s.mgmt.trial.trial then 1 else 0
  let m : Mgmt := { s.mgmt with trialClear := 0, trialSwitches := s.mgmt.trialSwitches + more }
  let r : Recovery := { s.rcv with gapAt := none, cp := s.rcv.cp.taken us (Nat.ble 2 s.recentSwitches) }
  { s with host := { s.host with service := 0 }, rcv := r, mgmt := m }

/-- A switch-over ends: CP-B is active with the token and serves; a second one within a trial reverts it (R425, R428, R460,
R462). -/
def State.endGap (s : State) (at_ : Word) : State :=
  let us := (s.time - at_).toNat / 1000
  ((((((s.serveAgain us).switchEvents at_ us).postDropped).readRing).resumeAll).tryChipReset).revertSwitched

/-- The new image closes an activation's window: it posts the command, CP-B's retained image is replaced and its self-test
starts, a reset that was held goes on (R459, step 5; R463). -/
def State.closeWindow (s : State) (a : Activation) : State :=
  let ver : Bool → Nat × Nat := fun b => match s.slot b with
    | none => (0, 0)
    | some i => (i.major, i.minor)
  let detail := versionDetail (ver (!a.slot)).1 (ver (!a.slot)).2 (ver a.slot).1 (ver a.slot).2
  let s1 := { s with
    host := { s.host with service := 0 }, mgmt := { s.mgmt with activation := none, cpbSlot := a.slot, trialClear := 0 } }
  let s2 := s1.updCp fun c => if c.active then c else { c with cpbState := 1 }
  (((s2.endActivate a 0 detail).readRing).resumeAll).tryChipReset

/-- The active CP writes CP_WD_PET: the first write after a switch-over ends the gap, the first of a new image closes its
activation's window; any other restarts the watchdog (R405, R425, R459). -/
def execCpWdPet (s : State) : Out :=
  match s.rcv.gapAt, s.mgmt.activation with
  | some t, _ => .next (s.endGap t)
  | none, some a => if s.host.service = 2 then .next (s.closeWindow a) else .next s
  | none, none => .next s

/-- CP-B's rolling self-test: its result, and a retained image that failed its check is reloaded from the active slot (R422,
R460). -/
def execCpbSelfTest (passed imageOk : Bool) (s : State) : Out :=
  if !s.cpOn || !s.fwLive || s.rcv.cp.active then .next s
  else
    let s1 := if imageOk then s else { s with mgmt := { s.mgmt with cpbSlot := s.mgmt.fw.activeSlot } }
    if passed then
      let s2 := s1.updCp fun c => { c with cpbState := 0, cpbHealthy := true }
      let tested := s2.mgmt.trial.cpbTested || (s2.mgmt.trial.trial && s2.mgmt.cpbSlot == s2.mgmt.fw.activeSlot)
      .next { s2 with
        rcv := { s2.rcv with cpbPassAt := some s.time, cpbFailed := false },
        mgmt := { s2.mgmt with trial := { s2.mgmt.trial with cpbTested := tested } } }
    else
      let s2 := s1.updCp fun c => { c with cpbState := 0, cpbHealthy := false }
      .next (({ s2 with rcv := { s2.rcv with cpbFailed := true } }).eventChip 0x0701 0 (3 * 2 ^ 28 + 1))

/-- CP-B has reset and tested CP-A after a switch-over (R428). -/
def execCpaSelfTest (passed : Bool) (s : State) : Out :=
  if s.cpOn && s.fwLive && s.rcv.cp.active && s.rcv.cp.cpaState == 1 && passed then
    .next (s.updCp fun c => { c with cpaState := 4 })
  else .next s

/-- CP-A takes back the token and control, when no partition reset, LAYOUT_SET or chip reset is in progress (R428). -/
def execHandback (s : State) : Out :=
  if s.cpOn && s.fwLive && s.rcv.cp.cpaState == 4 && s.parts.toList.all (fun q => q.reset.isNone) && s.host.layoutMove.isNone
      && s.rcv.chip.isNone then
    .next (s.updCp fun c => { c with active := false, token := 0, cpaState := 0, cpbState := 0, cpbHealthy := false })
  else .next s

end Sys2Proof.Machine
end

