-- ==== Sys2Proof/Machine/MailboxEvents.lean ====
section
/-! DEFINITION. The mailbox scanner, and the commands for partitions and the chip (R187, R188, R192 to R195, R396 to R399,
R407, R412, R452, R458). -/

namespace Sys2Proof.Machine

/-! ## Acceptance -/

/-- The mailbox at a place of the scan order (R192). -/
def scanMb (i : Nat) : MbId :=
  if i < 16 then ⟨true, 0, toFin 64 i⟩ else ⟨false, toFin 4 ((i - 16) / 64), toFin 64 ((i - 16) % 64)⟩

/-- The argument fields of an opcode, and its scope: 0 either, 1 partition, 2 chip; none for an unlisted opcode (R195,
R225, R458). -/
def commandForm (opcode : Nat) (chip : Bool) : Option (Nat × List (Nat × Nat × Nat)) :=
  match opcode with
  | 0x0001 => some (0, [])
  | 0x0002 => some (0, [])
  | 0x0010 => some (1, [(8, 0, 64), (0x10, 0, 32), (0x14, 0, 6), (0x18, 0, 64), (0x20, 0, 1)])
  | 0x0011 => some (1, [(8, 0, 48)])
  | 0x0020 => some (1, [(8, 0, 6), (0x10, 0, 40), (0x18, 0, 32)])
  | 0x0021 => some (1, [(8, 0, 6)])
  | 0x0030 => some (1, [(8, 0, 5), (0xC, 0, 16)])
  | 0x0031 => some (1, [(8, 0, 5), (9, 0, 4), (0xA, 0, 8), (0xC, 0, 32)])
  | 0x0040 => some (0, [(8, 0, 48), (0x10, 0, 13), (0x18, 0, 64)] ++ (if chip then [(0x20, 0, 2)] else []))
  | 0x0050 => some (1, [])
  | 0x0051 => some (1, [])
  | 0x0060 => some (1, [(8, 0, 48), (0x10, 0, 64)])
  | 0x0100 => some (2, [(8, 0, 3)])
  | 0x0101 => some (2, [(8, 0, 2), (9, 0, 1)])
  | 0x0102 => some (2, [(8, 0, 1)])
  | 0x0110 => some (2, [(8, 0, 1)])
  | 0x0111 => some (2, [])
  | 0x0120 => some (2, [(8, 0, 1)])
  | 0x0121 => some (2, [(8, 0, 2), (0x10, 0, 64), (0x18, 0, 64)])
  | _ => none

/-- No bit of a command outside its fields is set (R194, R195). -/
def Mailbox.rsvdOk (m : Mailbox) (fs : List (Nat × Nat × Nat)) : Bool :=
  let all := [(0, 0, 16), (0, 16, 8), (0, 24, 1), (4, 0, 32)] ++ fs
  let used := (all.map fun f => m.arg f.1 f.2.1 f.2.2 * 2 ^ (8 * f.1 + f.2.1)).foldl (· + ·) 0
  used == m.cmd.toNat

/-- A buffer partition of a chip-scope command exists and is the chip owner's own (R195). -/
def State.bufferPart (s : State) (p : PartNo) : Bool := s.partExists p && s.owner p == s.host.chipOwner

/-- A command's arguments are in range (R195, R206, R225). -/
def State.argsOk (s : State) (mb : MbId) (m : Mailbox) : Bool :=
  match m.opcode with
  | 0x0010 => m.arg 8 0 64 % 64 == 0
  | 0x0020 => m.arg 0x10 0 40 % 4096 == 0
  | 0x0030 => decide (m.arg 8 0 5 < (s.part mb.part).clusters.length)
  | 0x0031 => decide (m.arg 8 0 5 < (s.part mb.part).clusters.length)
  | 0x0040 =>
    let p : PartNo := if mb.chip then toFin 4 (m.arg 0x20 0 2) else mb.part
    let n := m.arg 0x10 0 13
    decide (1 ≤ n) && decide (n ≤ 4096) && m.arg 0x18 0 64 % 64 == 0 && s.rangeOk p (m.arg 0x18 0 64) (64 * n)
      && (!mb.chip || s.bufferPart p)
  | 0x0060 =>
    let n := ((s.part mb.part).records.filter fun r => r.seq == BitVec.ofNat 48 (m.arg 8 0 48)).length
    n == 0 || s.rangeOk mb.part (m.arg 0x10 0 64) (64 * n)
  | 0x0101 => s.partExists (toFin 4 (m.arg 8 0 2))
  | 0x0121 =>
    let p : PartNo := toFin 4 (m.arg 8 0 2)
    s.bufferPart p && m.arg 0x18 0 64 == 160 && s.rangeOk p (m.arg 0x10 0 64) 160
  | _ => true

/-- The life-cycle state permits an opcode (R448). -/
def lifePermits (life : BitVec 3) (opcode : Nat) : Bool :=
  if life = 3 then opcode == 1 || opcode == 2 || opcode == 0x40
  else if life = 4 then opcode == 1 || opcode == 2
  else true

/-- The state's own refusals: a partition held in reset takes only NOP, QUERY and JOURNAL_READ; CHIP_OWNER_SET meets other
chip mailboxes; FW_ACTIVATE by R458 (R18, R188, R195). -/
def State.stateRefuses (s : State) (mb : MbId) (m : Mailbox) : Code :=
  if !mb.chip && (s.part mb.part).state == 0 && !(m.opcode == 1 || m.opcode == 2 || m.opcode == 0x40) then 0x0103
  else match m.opcode with
    | 0x0102 => if (chipMailboxes.filter (· != mb)).all fun o => (s.mailbox o).status.state == 0 then 0 else 0x0103
    | 0x0120 => s.activateCheck (m.arg 8 0 1 == 1)
    | _ => 0

/-- The code with which firmware refuses a POSTED command, or 0 (R191, R194, R195, R399, R448). -/
def State.refusal (s : State) (mb : MbId) (m : Mailbox) : Code :=
  match commandForm m.opcode mb.chip with
  | none => 0x0101
  | some (scope, fs) =>
    if (scope = 1 ∧ mb.chip = true) ∨ (scope = 2 ∧ mb.chip = false) then 0x0109
    else if !lifePermits s.fuses.lifecycle m.opcode then 0x0604
    else if !m.rsvdOk fs || !s.argsOk mb m then 0x0102
    else if m.opcode = 0x100 ∧ m.arg 8 0 3 ≠ 7 ∧ (s.licence.granted ||| s.licence.pending).getLsbD 0 = false then 0x0105
    else if m.opcode = 0x20 ∧ m.arg 8 0 6 > 7 ∧ s.licence.granted.getLsbD 1 = false then 0x0105
    else s.stateRefuses mb m

/-- Firmware meets one mailbox of a sweep (R191 to R193). -/
def State.scanOne (s : State) (mb : MbId) : State :=
  let m := s.mailbox mb
  if m.status.state != 1 || (!mb.chip && (s.part mb.part).state == 1) then s
  else
    let code := s.refusal mb m
    if code = 0 then s.acceptCmd mb (m.opcode != 0x10) else s.refuseCmd mb code

/-- The scanner sweeps every mailbox once (R192). -/
def execMailboxScan (s : State) : Out :=
  if !s.fwLive || !s.boot.status.ready || s.clocks.pkg != .run then .next s
  else .next ((List.range 272).foldl (fun s i => s.scanOne (scanMb i)) s)

/-! ## Partitions -/

/-- A mailbox's command already waits for a reset of the partition. -/
def State.waitsReset (s : State) (p : PartNo) (mb : MbId) : Bool :=
  match (s.part p).reset with
  | none => false
  | some r => r.mbs.contains mb

/-- PART_RESET (R193, R412, R431). -/
def execPartReset (mb : MbId) (s : State) : Out :=
  s.command mb 0x50 fun _ =>
    if s.waitsReset mb.part mb then s else s.resetPart mb.part { level := 3, trigger := 0x0705, mbs := [mb] } none

/-- PART_ASSIGN: the partition is reset and gets a new owner (R187, R188). -/
def execPartAssign (mb : MbId) (s : State) : Out :=
  s.command mb 0x101 fun m =>
    let p : PartNo := toFin 4 (m.arg 8 0 2)
    if s.waitsReset p mb then s
    else s.resetPart p { level := 3, trigger := 0x0705, mbs := [mb], owner := some (m.arg 9 0 1 == 1) } none

/-- A partition drains for a layout change: no dump is taken, its mailboxes become FREE (R135, R193). -/
def State.drainForLayout (s : State) (p : PartNo) : State :=
  if s.draining p then
    let s1 := s.updPart p fun q => { q with reset := q.reset.map fun r => { r with mbs := r.mbs.filter MbId.chip } }
    s1.meetMailboxes (partMailboxes p) [] true
  else
    (s.updPart p fun q => { q with reset := some { level := 3, trigger := 0x0705 } }).startDrain p none [] true

/-- LAYOUT_SET: every partition drains, then the layout is applied with a full fill (R113, R135, R193, R396). -/
def execLayoutSet (mb : MbId) (s : State) : Out :=
  s.command mb 0x100 fun m =>
    if s.host.layoutMove.isSome then s
    else
      let exist := (List.finRange 4).filter s.partExists
      let run := exist.filter fun p => (s.part p).state != 0
      let done := exist.foldl (fun (b : BitVec 4) p => setBit b p.val ((s.part p).state == 0)) 0
      let code := BitVec.ofNat 3 (m.arg 8 0 3)
      let s1 := { s with host := { s.host with layoutMove := some (mb, code, done, false) } }
      let s2 := (exist.filter fun p => (s.part p).state == 0).foldl (fun s p => s.meetMailboxes (partMailboxes p) [] true) s1
      let s3 := run.foldl State.drainForLayout s2
      if run.isEmpty then s3.beginFill mb code else s3

/-! ## The chip -/

/-- CHIP_OWNER_SET: done at once; the move takes effect when its mailbox is freed (R187). -/
def execChipOwnerSet (mb : MbId) (s : State) : Out :=
  s.command mb 0x102 fun m =>
    ({ s with host := { s.host with ownerMove := some (mbKey mb, m.arg 8 0 1 == 1) } }).completeCmd mb 0 0

/-- CHIP_RESET: after the dumps that are due (R397, R407, R415). -/
def execChipReset (mb : MbId) (s : State) : Out :=
  s.command mb 0x110 fun m => if s.rcv.chip.isSome then s else s.askChipReset (m.arg 8 0 1 == 1) (some mb) none

/-- POWER_CYCLE: DONE, then the request goes to tray firmware (R195, R407). -/
def execPowerCycle (mb : MbId) (s : State) : Out :=
  s.command mb 0x111 fun _ =>
    let s1 := s.completeCmd mb 0 0
    ({ s1 with rcv := { s1.rcv with powerCycle := true } }).escalateChip 5

/-- FW_ACTIVATE: the pause begins, unless the state has come to refuse it (R458, R459). -/
def execFwActivate (mb : MbId) (s : State) : Out :=
  s.command mb 0x120 fun m =>
    let slot := m.arg 8 0 1 == 1
    let code := s.activateCheck slot
    if code ≠ 0 then s.completeCmd mb code 0
    else s.beginActivation { slot := slot, mb := some mb, msg := none, revert := none, start := s.time }

/-- LICENCE_INSTALL: the licence is read from the buffer, verified and stored (R195, R451, R452). -/
def execLicenceInstall (mb : MbId) (sigOk : Bool) (s : State) : Out :=
  s.command mb 0x121 fun m =>
    let p : PartNo := toFin 4 (m.arg 8 0 2)
    let a := m.arg 0x10 0 64
    let n := m.arg 0x18 0 64
    if n ≠ 160 ∨ s.rangeOk p a n = false then s.completeCmd mb 0x0102 0
    else
      let r := s.stackRead p a n
      if r.2 then s.completeCmd mb 0x0201 0
      else
        let i := s.installLicence r.1 sigOk
        i.1.completeCmd mb i.2 0

end Sys2Proof.Machine
end

