-- ==== Sys2Proof/Machine/MgmtOps.lean ====
section
/-! DEFINITION. The checks every management message meets, and its responses (R434, R437 to R440, R448). -/

namespace Sys2Proof.Machine

/-- The context of a message that its response repeats: interface, TAG, COUNTER (R437). -/
def msgOf (h : MgmtHdr) : Bool × BitVec 32 × BitVec 64 := (h.i3c, h.tag, h.counter)

/-- Answer a message (R437). -/
def State.answer (s : State) (h : MgmtHdr) (type : Nat) (code : Code) (body : List Word) : State := s.respond type (msgOf h) code body

/-- Refuse a message with a code: MGMT_STATUS counts it (R438, R464). -/
def State.reject (s : State) (h : MgmtHdr) (type : Nat) (code : Code) : State :=
  let st := { s.mgmt.status with rejected := satInc s.mgmt.status.rejected, lastReject := code }
  ({ s with mgmt := { s.mgmt with status := st } }).answer h type code []

/-- Finish a message: done, or refused with a code. -/
def State.settle (s : State) (h : MgmtHdr) (type : Nat) (code : Code) : State :=
  if code = 0 then s.answer h type 0 [] else s.reject h type code

/-- A message can arrive: the bedrock domain has power, and over Ethernet the link is up (R434). -/
def State.hears (s : State) (h : MgmtHdr) : Bool := s.lands.bedrockPg && (h.i3c || s.mgmt.status.ethUp)

/-- The RACK, FABRIC and SERVICE roles as masks (R439). -/
def roleRack : BitVec 3 := 1
def roleFabric : BitVec 3 := 2
def roleService : BitVec 3 := 4

/-- Who may send a type (R440): whether signed messages may carry it and with which controller roles, and whether it is a
TRAY type. -/
structure Need where
  signed : Bool := true
  roles : BitVec 3 := 0
  tray : Bool := false

/-- Step 4 of R438: the life-cycle state permits the type with its key (R448). -/
def lifeOk (life : BitVec 3) (type : Nat) (key : BitVec 3) : Bool :=
  match life.toNat with
  | 0 => type != 0x38
  | 1 => type != 0x36 && type != 0x38
  | 2 => type != 0x38
  | 3 => key == 7 || type == 0x35 || type == 0x38 || type == 0x37
  | _ => key == 7 && type == 2

/-- A controller key record has one of some roles, in FIELD (R439, R448). -/
def State.recTakes (s : State) (i : Fin 3) (roles : BitVec 3) : Bool :=
  s.fuses.lifecycle == 2 && (s.keyAt i).any fun r => r.roles &&& roles != 0

/-- A key slot holds a key whose roles take a type (R439, R448). -/
def State.keyTakes (s : State) (key roles : BitVec 3) : Bool :=
  match key.toNat with
  | 0 => s.fuses.lifecycle == 2
  | 1 => s.recTakes 0 roles
  | 2 => s.recTakes 1 roles
  | 3 => s.recTakes 2 roles
  | 4 => s.fuses.lifecycle == 0 || s.fuses.lifecycle == 1 || s.fuses.lifecycle == 3
  | _ => false
/-- The last accepted COUNTER of a key slot (R439). -/
def State.lastCounter (s : State) (key : BitVec 3) : Word := s.mgmt.counters[toFin 8 key.toNat]

/-- Step 5 of R438: key, roles, signature, COUNTER; KEY 7 is for TELEMETRY_FETCH, and over I3C for the TRAY types (R439,
R440). -/
def State.keyOk (s : State) (h : MgmtHdr) (type : Nat) (n : Need) : Bool :=
  if h.key = 7 then type == 2 || (n.tray && h.i3c)
  else n.signed && s.keyTakes h.key n.roles && h.sigOk && decide (s.lastCounter h.key < h.counter)

/-- A signed message is received: its COUNTER is the last accepted one of its slot (R438, R439). -/
def State.takeCounter (s : State) (h : MgmtHdr) : State :=
  if h.key = 7 then s
  else { s with mgmt := { s.mgmt with counters := s.mgmt.counters.set (toFin 8 h.key.toNat) h.counter } }

/-- R438's checks in their order, `ok` being check 5; a message that passes them is received and acted on. -/
def State.admitWith (s : State) (h : MgmtHdr) (type : Nat) (ok argsOk : Bool) (f : State → State) : State :=
  if !s.hears h then s
  else if !h.formOk then s.reject h type 0x0102
  else if h.destTag != s.fuses.serialTag then s
  else if !lifeOk s.fuses.lifecycle type h.key then s.reject h type 0x0604
  else if !ok then s.reject h type 0x0601
  else
    let s1 := s.takeCounter h
    if !h.bodyOk || !argsOk then s1.reject h type 0x0102 else f s1

/-- R438's checks with the key slots' own check 5. -/
def State.acceptMsg (s : State) (h : MgmtHdr) (type : Nat) (n : Need) (argsOk : Bool) (f : State → State) : State :=
  s.admitWith h type (s.keyOk h type n) argsOk f

/-- Firmware runs: what only it does can be done. -/
def State.fwUp (s : State) : Bool :=
  s.fwLive && s.clocks.pkg == .run && !s.boot.status.halted && (s.boot.status.ready || (s.boot.starting && decide (2 ≤ s.boot.status.stage.toNat)))

/-- Firmware can act on a message at once: it runs, and no message received before waits for it (R438; log 67). -/
def State.fwFree (s : State) : Bool := s.fwUp && s.mgmt.held.isEmpty

/-- A message that has been received waits for firmware (R437, R438; log 67). -/
def State.holdMsg (s : State) (i : HeldMsg) : State := { s with mgmt := { s.mgmt with held := s.mgmt.held ++ [i] } }

/-- R438's checks of the message `i`, whose effect firmware makes; it waits while firmware does not run (log 67). -/
def State.admitFw (s : State) (i : HeldMsg) (h : MgmtHdr) (type : Nat) (n : Need) (argsOk : Bool) (f : State → State) : State :=
  s.acceptMsg h type n argsOk (if s.fwFree then f else fun s1 => s1.holdMsg i)

/-- ORPHAN_MODE in the chip log and every partition's log (R443, R444). -/
def State.orphanEvents (s : State) (detail : Nat) : State :=
  ((List.finRange 4).filter s.partExists).foldl (fun s p => s.eventPart p 0x0504 detail) (s.eventChip 0x0504 0 detail)

/-- Orphan mode begins or ends (R334, R443, R444). -/
def State.orphanMode (s : State) (on : Bool) : State :=
  let st := { s.mgmt.status with orphan := on, orphanEntries := if on then satInc s.mgmt.status.orphanEntries else s.mgmt.status.orphanEntries }
  (({ s with mgmt := { s.mgmt with status := st } }).setting (.orphan on)).orphanEvents (if on then 1 else 0)

/-- A cap in W saturated to 12 bits; the limits clamp it (R333). -/
def capOf (x : BitVec 16) : BitVec 12 := BitVec.ofNat 12 (min 4095 x.toNat)

/-- A bit of a mask chooses a value. -/
def maskOpt {α : Type} (mask : BitVec 4) (i : Nat) (x : α) : Option α := if mask.getLsbD i then some x else none

/-! ## Telemetry -/

/-- Bytes as words of 64 bits. -/
def wordsOf (bs : List Byte) : List Word := (List.range (ceilDiv bs.length 8)).map fun i => wordOfBytes 64 ((bs.drop (8 * i)).take 8)

/-- Registers of the chip block at some offsets. -/
def State.regWords (s : State) (os : List Nat) : List Word := os.filterMap fun o => (s.chipReg o).map fun r => BitVec.ofNat 64 r.2

/-- Offsets of consecutive 64-bit registers. -/
def offsets (base n : Nat) : List Nat := (List.range n).map fun i => base + 8 * i

/-- SELECT 0: power, thermal, port, CP, boot and state registers with RT_TIME (R440); their order is the model's. -/
def State.telemetryRegs (s : State) : List Word :=
  s.regWords (offsets 0x180000 12 ++ ((List.range 20).map fun n => offsets (0x140000 + 0x400 * n) 11).flatten ++ offsets 0x1B0000 5
    ++ offsets 0x1A0000 4 ++ offsets 0x190000 8)

/-- SELECT 1: the cairn records of the current and the previous start (R388, R440). -/
def State.telemetryCairn (s : State) : List Word :=
  ((s.boot.cairn.toList ++ s.boot.previous.toList).map fun c => wordsOf (bytesOfNat 32 c.word.toNat)).flatten

/-- SELECT 2: the chip event log and the fault logs (R440, R473). -/
def State.telemetryLogs (s : State) : List Word :=
  (s.host.chipEvt.entries.map fun e => wordsOf (bytesOfNat 16 e.2.word.toNat)).flatten
    ++ (s.rcv.faultLog.map fun e => [e.1, BitVec.ofNat 64 (e.2.1.toNat + e.2.2.toNat * 2 ^ 32)]).flatten

/-- SELECT 3: the energy records of a partition from a SEQ on (R239, R440). -/
def State.telemetryEnergy (s : State) (p : PartNo) (seq : BitVec 48) : List Word :=
  (((s.part p).records.filter fun r => decide (seq ≤ r.seq)).map fun r => wordsOf r.bytes).flatten

/-- SELECT 4: a snapshot copies and clears every bin and mark count, at most one per millisecond (R306). -/
def State.takeSnapshot (s : State) : State :=
  if s.lasted s.fab.snapshotAt 1000000 || s.fab.snapshotAt.isNone then
    { s with fab := { s.fab with snapshot := s.fab.hist, hist := [], snapshotAt := some s.time } }
  else s

/-- The bins of a snapshot as words (R306). -/
def snapshotWords (t : Table (BitVec 32)) : List Word := (List.range 720).map fun i => (Table.get 0 t i).setWidth 64

/-! ## Coordinates and ports -/

/-- A new device number takes effect: every port sends a new IDENT, and R258 applies at this end; a port that is UP and
still matches stays UP (R247, R257, R258, R441). -/
def State.setDevice (s : State) (d : DeviceNo) : State :=
  let s1 := { s with device := some d }
  (List.finRange 20).foldl (fun s n =>
    let x := s.link n
    if !x.accepted then s
    else
      let s2 := s.emit n (.link (.ident (s.ownIdent n)))
      match x.ident with
      | none => s2
      | some i =>
        if x.status.state = 3 then (match s2.checkIdent n i with
          | .up _ => s2
          | _ => s2.applyIdent n i)
        else if x.status.state = 2 ∨ x.status.state = 5 then s2.applyIdent n i
        else s2) s1

/-- FP_EXPECT as a message gives it (R247, R273). -/
def FpExpect.ofMsg (w : Word) : FpExpect := { device := w.extractLsb' 0 14, role := w.extractLsb' 14 5, valid := w.getLsbD 19 }

/-- STAND_IN is accepted for a role (R271). A spare that serves another role already is refused and keeps that role (the spec
does not say; DESIGN CHOICE, log 90). -/
def State.standInOk (s : State) (n : Fin 20) (role : Nat) : Bool :=
  let r : Fin 20 := toFin 20 role
  let st := (s.link r).status.state
  (st == 4 || st == 5 || st == 0) && ([18, 19] : List (Fin 20)).all (fun m => (s.link m).ctrl.standIn.toNat != role)
    && (s.link n).ctrl.standIn == 0x1F && (decide (role < 12) || decide (15 < role) || s.licence.granted.getLsbD 4)

/-- A spare begins to stand in for a role: it trains in that role (R271). -/
def State.beginStandIn (s : State) (n : Fin 20) (role : BitVec 5) : State :=
  (s.updLink n fun x => { x with ctrl := { x.ctrl with standIn := role, enable := true }, status := { x.status with role := role } }).trainPort n

/-- A stand-in ends: a spare that is not DOWN already fails with reason 0, its handover goes to the role's twin, and it is
DISABLED (R265, R271). -/
def State.endStandIn (s : State) (n : Fin 20) : State :=
  let st := (s.link n).status.state
  let s1 := if st = 0 ∨ st = 4 then s else s.failPort n 0
  s1.updLink n fun x => { x with
    ctrl := { x.ctrl with standIn := 0x1F, enable := false }, status := { x.status with state := 0, role := BitVec.ofNat 5 n.val } }

/-- Write a route entry; RSVD bits are not kept, and 18 to 30 act as unreachable (R285, R309). -/
def State.writeRoute (s : State) (bank : Bool) (device port : Nat) : State :=
  let v : BitVec 5 := BitVec.ofNat 5 port
  { s with fab := { s.fab with routes := Table.set 31 s.fab.routes ((if bank then 16384 else 0) + device) v } }

/-- FAB_RING as a write leaves it: the fields of CURRENT stay (R285). -/
def FabRing.written (r : FabRing) (current : Bool) (w : BitVec 32) : FabRing :=
  let n := FabRing.ofWord w
  if current then { r with outClosed0 := n.outClosed0, inClosed0 := n.inClosed0 }
  else { r with outClosed1 := n.outClosed1, inClosed1 := n.inClosed1 }

/-! ## SPDM -/

/-- A transport's connection (R447). -/
def State.spdmLevel (s : State) (path : SpdmPath) : Nat :=
  match s.mgmt.spdm.find? fun c => c.path == path with
  | none => 0
  | some c => c.level.val

/-- Set how far a transport's connection has come. There are four connections in all: the one that was set up longest ago
ends for a fifth (R447; DESIGN CHOICE, log 28). -/
def State.setSpdm (s : State) (path : SpdmPath) (level : Fin 4) : State :=
  let rest := s.mgmt.spdm.filter fun c => c.path != path
  { s with mgmt := { s.mgmt with spdm := rest.drop (rest.length - 3) ++ [{ path := path, level := level }] } }

/-- Send an SPDM response; Bus Master Enable of a port gates the MCTP messages that the device sends there (R179). -/
def State.spdmSend (s : State) (path : SpdmPath) (r : SpdmResp) : State :=
  let gated := match path with
    | .mctp b => !(s.hostPort b).busMaster
    | _ => false
  if gated then s
  else { s with mgmt := { s.mgmt with spdmSent := s.mgmt.spdmSent ++ [(path, r)] } }

/-- A measurement block (R446, R447). -/
def State.block (s : State) (i : Nat) : Nat × BitVec 512 := (i, s.mgmt.measurements[toFin 7 (i - 1)])

/-- The blocks that an index asks for: 0xFF all of them, 1 to 7 one; none for another (R447; log 28). -/
def State.blocksOf (s : State) (index : Nat) : Option (List (Nat × BitVec 512)) :=
  if index = 0xFF then some ((List.range 7).map fun i => s.block (i + 1))
  else if 1 ≤ index ∧ index ≤ 7 then some [s.block index]
  else if index = 0 then some []
  else none

/-- The answer to an SPDM request once the connection is set up (R445 to R447; error codes as DSP0274, log 28). -/
def State.spdmAnswer (s : State) (req : SpdmReq) : SpdmResp :=
  let chain := Config.chain s.flash.certKey
  match req with
  | .getVersion => .version
  | .getCapabilities => .capabilities
  | .negotiateAlgorithms => .algorithms
  | .getDigests => .digests (Config.sha512 chain)
  | .getCertificate slot =>
    if !s.mgmt.sec.identityOk then .error 5 else if slot ≠ 0 then .error 1 else .certificate s.flash.certKey
  | .challenge slot nonce => if slot ≠ 0 then .error 1 else .challengeAuth nonce
  | .getMeasurements index nonce => match s.blocksOf index.toNat with
    | none => .error 1
    | some bs => .measurements bs nonce
  | .other _ => .error 7

/-- How far a connection must have come for a request, and where it leads (R447; log 28). -/
def spdmStep : SpdmReq → Nat × Option (Fin 4)
  | .getVersion => (0, some 1)
  | .getCapabilities => (1, some 2)
  | .negotiateAlgorithms => (2, some 3)
  | .getDigests => (3, none)
  | .getCertificate _ => (3, none)
  | .challenge _ _ => (3, none)
  | .getMeasurements _ _ => (3, none)
  | .other _ => (0, none)

/-- A transport is up (R178, R434, R447). -/
def State.pathUp (s : State) : SpdmPath → Bool
  | .doe b => (s.hostPort b).up
  | .mctp b => (s.hostPort b).up
  | .i3c => s.lands.bedrockPg

end Sys2Proof.Machine
end

