-- ==== Sys2Proof/Machine/MgmtEvents.lean ====
section
/-! DEFINITION. Management messages for power, time, coordinates, ownership, states, resets, routes and ports; heartbeat and
orphan mode; JTAG, interfaces, attestation (R271, R285, R306, R333, R337, R360, R373, R434 to R444, R447). -/

namespace Sys2Proof.Machine

/-! ## Heartbeat and telemetry -/

/-- HEARTBEAT: HB_MISSED returns to 0 and orphan mode ends (R442, R444). -/
def execHeartbeat (h : MgmtHdr) (s : State) : Out :=
  .next (s.acceptMsg h 1 { roles := roleRack } true fun s =>
    let s1 := { s with mgmt := { s.mgmt with status := { s.mgmt.status with hbMissed := 0 } } }
    (if s1.mgmt.status.orphan then s1.orphanMode false else s1).answer h 1 0 [])

/-- A whole second without an accepted HEARTBEAT, in FIELD with a RACK key; the tenth begins orphan mode (R442, R443). -/
def execHeartbeatMiss (s : State) : Out :=
  if !s.lands.bedrockPg || s.fuses.lifecycle != 2 || !s.mgmt.status.rackKey then .next s
  else
    let n := satInc s.mgmt.status.hbMissed
    let s1 := { s with mgmt := { s.mgmt with status := { s.mgmt.status with hbMissed := n } } }
    .next (if n = 10 ∧ s.mgmt.status.orphan = false then s1.orphanMode true else s1)

/-- The accepted counters are copied to tray flash (R439). -/
def execCounterSave (s : State) : Out :=
  if s.lands.bedrockPg then .next (s.writeSettings fun x => { x with counters := s.mgmt.counters }) else .next s

/-- TELEMETRY_FETCH (R306, R440). -/
def execTelemetryFetch (h : MgmtHdr) (select : BitVec 3) (part : PartNo) (seq : BitVec 48) (s : State) : Out :=
  .next (s.acceptMsg h 2 { roles := 7 } (decide (select.toNat ≤ 4)) fun s =>
    match select.toNat with
    | 0 => s.answer h 2 0 s.telemetryRegs
    | 1 => s.answer h 2 0 s.telemetryCairn
    | 2 => s.answer h 2 0 s.telemetryLogs
    | 3 => s.answer h 2 0 (s.telemetryEnergy part seq)
    | _ =>
      if s.clocks.pkg == .ps3 || s.clocks.pkg == .ps4 then s.answer h 2 0 (snapshotWords [])
      else
        let s1 := s.takeSnapshot
        s1.answer h 2 0 (snapshotWords s1.fab.snapshot))

/-! ## Coordinates, power, time -/

/-- COORD_SET's effect: the same number has none; another is refused while a stream is open or waits (R441). -/
def State.doCoordSet (h : MgmtHdr) (device : DeviceNo) (s : State) : State :=
  if s.device == some device then s.answer h 0x10 0 []
  else if s.anyStream then s.reject h 0x10 0x0103
  else (s.setDevice device).answer h 0x10 0 []

/-- COORD_SET (R441). -/
def execCoordSet (h : MgmtHdr) (device : DeviceNo) (s : State) : Out :=
  .next (s.admitFw (.coordSet h device) h 0x10 { roles := roleRack, tray := true } true (State.doCoordSet h device))

/-- CAP_SET: `mask` bits 0 to 3 choose RACK_CAP, BRAKE_W, BRAKE_LEVEL, ORPHAN_PCT (R333, R342, R443). -/
def execCapSet (h : MgmtHdr) (mask : BitVec 4) (rackCap brakeW : BitVec 16) (brakeLevel orphanPct : BitVec 7) (s : State) : Out :=
  .next (s.acceptMsg h 0x11 { roles := roleRack } true fun s =>
    (s.setting (.caps (maskOpt mask 0 (capOf rackCap)) none (maskOpt mask 1 (capOf brakeW)) (maskOpt mask 2 brakeLevel)
      (maskOpt mask 3 orphanPct))).answer h 0x11 0 [])

/-- TRAY_CAP (R333, R342). -/
def execTrayCap (h : MgmtHdr) (cap : BitVec 12) (s : State) : Out :=
  .next (s.acceptMsg h 0x12 { signed := false, tray := true } true fun s =>
    (s.setting (.caps none (some cap) none none none)).answer h 0x12 0 [])

/-- COOLANT: the inlet temperature of the thermal model (R360). -/
def execCoolant (h : MgmtHdr) (temp : BitVec 10) (s : State) : Out :=
  .next (s.acceptMsg h 0x13 { signed := false, tray := true } true fun s =>
    (s.updPower fun w => { w with thm := { w.thm with coolant := temp, coolantValid := true } }).answer h 0x13 0 [])

/-- RAILS: eight rail powers for the calibration (R337). -/
def execRails (h : MgmtHdr) (powers : List (BitVec 16)) (s : State) : Out :=
  .next (s.acceptMsg h 0x14 { signed := false, tray := true } (powers.length == 8) fun s =>
    (s.updPower fun w => { w with rails := some (sumNat (powers.map BitVec.toNat)) }).answer h 0x14 0 [])

/-- POWER_CONFIG (R349, R365, R367). -/
def execPowerConfig (h : MgmtHdr) (fixedEn : Option Bool) (fixedStep : Option (BitVec 4)) (boostEn : Option Bool)
    (hintMargin : Option (BitVec 5)) (droopMv : Option (BitVec 6)) (stallLevel : Option (BitVec 7)) (s : State) : Out :=
  .next (s.acceptMsg h 0x15 { roles := roleRack } true fun s =>
    (s.setting (.config fixedEn fixedStep boostEn hintMargin droopMv stallLevel)).answer h 0x15 0 [])

/-- TIME_SET: RT_LOAD, PERIOD_MS, ARM_LOAD (R373, R384). -/
def execTimeSet (h : MgmtHdr) (load : Word) (period : BitVec 16) (arm : Bool) (s : State) : Out :=
  .next (s.acceptMsg h 0x16 { roles := roleRack } true fun s =>
    (s.updClocks fun c => { c with load := load, ctrl := { periodMs := period, armLoad := arm } }).answer h 0x16 0 [])

/-! ## Ownership, states, resets -/

/-- OWNER_SET's effect: as PART_ASSIGN, or as CHIP_OWNER_SET at once (R187, R188). -/
def State.doOwnerSet (h : MgmtHdr) (part : PartNo) (owner chip : Bool) (s : State) : State :=
  if chip then
    if chipMailboxes.all fun o => (s.mailbox o).status.state == 0 then
      ({ s with host := { s.host with chipOwner := owner } }).answer h 0x17 0 []
    else s.reject h 0x17 0x0103
  else (s.resetPart part { level := 3, trigger := 0x0705, owner := some owner } none).answer h 0x17 0 []

/-- OWNER_SET (R187, R188, R440). -/
def execOwnerSet (h : MgmtHdr) (part : PartNo) (owner chip : Bool) (s : State) : Out :=
  .next (s.admitFw (.ownerSet h part owner chip) h 0x17 { roles := roleRack } (chip || s.partExists part)
    (State.doOwnerSet h part owner chip))

/-- STATE_SET: PS3_EN; entering PS4 needs the RACK role and every partition at least in PS2 (R375, R440). -/
def execStateSet (h : MgmtHdr) (ps3En ps4 : Bool) (s : State) : Out :=
  .next (s.acceptMsg h 0x18 { roles := if ps4 then roleRack else roleRack ||| roleFabric } true fun s =>
    let s1 := s.updClocks fun c => { c with psConfig := { c.psConfig with ps3En := ps3En } }
    if !ps4 then s1.answer h 0x18 0 []
    else if s.clocks.pkg == .ps3 then (s1.answer h 0x18 0 []).enterPs4
    else if s.allResting then ((s1.answer h 0x18 0 []).enterPs3).enterPs4
    else s.reject h 0x18 0x0103)

/-- RESET: a chip reset, answered once the start that follows it has ended; or the request of a power cycle. It is acted on
when no CP can run as well (R397, R407, R414, R437, R463). -/
def execReset (h : MgmtHdr) (kind : BitVec 2) (s : State) : Out :=
  .next (s.acceptMsg h 0x19 { roles := roleRack } (kind != 3) fun s =>
    if kind = 2 then
      (({ s with rcv := { s.rcv with powerCycle := true } }).escalateChip 5).answer h 0x19 0 []
    else if s.rcv.chip.isSome then s.reject h 0x19 0x0103
    else s.askChipReset (kind == 1) none (some (msgOf h)))

/-! ## Routes and the fabric -/

/-- EPOCH with FLIP: CURRENT is inverted and SETTLING set, unless it settles already (R285); ports that are UP are released
(R270). -/
def execFlip (h : MgmtHdr) (s : State) : Out :=
  .next (s.acceptMsg h 0x21 { roles := roleFabric } true fun s =>
    let e := s.fab.epoch
    if e.settling then s.answer h 0x21 0 []
    else
      let links := s.fab.links.map fun (x : Link) => { x with released := x.released || x.status.state == 3 }
      let e1 : FabEpoch := { current := !e.current, settling := true, flips := e.flips + 1 }
      ({ s with fab := { s.fab with epoch := e1, links := links } }).answer h 0x21 0 [])

/-- EPOCH with SETTLE (R285). -/
def execSettle (h : MgmtHdr) (s : State) : Out :=
  .next (s.acceptMsg h 0x21 { roles := roleFabric } true fun s =>
    ({ s with fab := { s.fab with epoch := { s.fab.epoch with settling := false } } }).answer h 0x21 0 [])

/-- ROUTE_WRITE: entries of the bank that is not CURRENT, while nothing settles (R285, R309, R440). -/
def execRouteWrite (h : MgmtHdr) (bank : Bool) (first count : BitVec 16) (entries : List Byte) (s : State) : Out :=
  let n := count.toNat
  .next (s.acceptMsg h 0x20 { roles := roleFabric }
    (decide (1 ≤ n) && decide (n ≤ 480) && decide (first.toNat + n ≤ 16384) && entries.length == 2 * n) fun s =>
      if s.fab.epoch.settling || bank == s.fab.epoch.current then s.reject h 0x20 0x0103
      else ((List.range n).foldl (fun s i =>
        s.writeRoute bank (first.toNat + i) (bitsAt (entries.getD (2 * i) 0).toNat 0 5)) s).answer h 0x20 0 [])

/-- FABRIC_CONFIG: FAB_RING under R285, FAB_ARB, FAB_CONG_CFG, FAB_LINK_CONFIG (R440). -/
def execFabricConfig (h : MgmtHdr) (ring arb cong link : Option (BitVec 32)) (s : State) : Out :=
  .next (s.acceptMsg h 0x22 { roles := roleFabric } true fun s =>
    let f := s.fab
    let r := match ring with
      | none => f.ring
      | some w => if f.epoch.settling then f.ring else f.ring.written f.epoch.current w
    let a := (arb.map FabArb.ofWord).getD f.arb
    let c := (cong.map FabCongCfg.ofWord).getD f.congCfg
    let l := (link.map FabLinkConfig.ofWord).getD f.linkConfig
    ({ s with fab := { f with ring := r, arb := a, congCfg := c, linkConfig := l } }).answer h 0x22 0 [])

/-- The effect of PORT_SET of FP_EXPECT and FULL_TRAIN; ports that wait for their expected peer are checked again (R247,
R255, R258). -/
def State.doPortSet (h : MgmtHdr) (port : BitVec 5) (expect : Word) (fullTrain : Bool) (s : State) : State :=
  let n : Fin 20 := toFin 20 port.toNat
  let s1 := s.updLink n fun x => { x with expect := FpExpect.ofMsg expect, fullTrain := x.fullTrain || fullTrain }
  (s1.recheckPorts).answer h 0x23 0 []

/-- PORT_SET of FP_EXPECT and FULL_TRAIN (R247, R255, R258). -/
def execPortSet (h : MgmtHdr) (port : BitVec 5) (expect : Word) (fullTrain : Bool) (s : State) : Out :=
  .next (s.admitFw (.portSet h port expect fullTrain) h 0x23 { roles := roleFabric } (decide (port.toNat < 20))
    (State.doPortSet h port expect fullTrain))

/-- The effect of PORT_SET of STAND_IN: a spare takes a role, or 0x1F ends that (R271). -/
def State.doStandIn (h : MgmtHdr) (port role : BitVec 5) (s : State) : State :=
  let n : Fin 20 := toFin 20 port.toNat
  if role = 0x1F then (s.endStandIn n).answer h 0x23 0 []
  else if s.standInOk n role.toNat then (s.beginStandIn n role).answer h 0x23 0 []
  else
    let s1 := (s.updLink n fun x => { x with status := { x.status with downCode := 0x0103 } }).noteDown 0x0103
    s1.reject h 0x23 0x0103

/-- PORT_SET of STAND_IN (R271). -/
def execStandIn (h : MgmtHdr) (port role : BitVec 5) (s : State) : Out :=
  let spare := port == 18 || port == 19
  let roleOk := role == 0x1F || (decide (8 ≤ role.toNat) && decide (role.toNat ≤ 17))
  .next (s.admitFw (.standIn h port role) h 0x23 { roles := roleFabric } (spare && roleOk) (State.doStandIn h port role))

/-- The effect of PORT_SET of RETRAIN: an enabled port trains now (R253, R258). -/
def State.doRetrain (h : MgmtHdr) (port : BitVec 5) (fullTrain : Bool) (s : State) : State :=
  let n : Fin 20 := toFin 20 port.toNat
  if !(s.link n).ctrl.enable then s.reject h 0x23 0x0103
  else
    let s1 := s.updLink n fun x => { x with fullTrain := x.fullTrain || fullTrain }
    (s1.trainPort n).answer h 0x23 0 []

/-- PORT_SET of RETRAIN (R253, R258). -/
def execRetrain (h : MgmtHdr) (port : BitVec 5) (fullTrain : Bool) (s : State) : Out :=
  .next (s.admitFw (.retrain h port fullTrain) h 0x23 { roles := roleFabric } (decide (port.toNat < 20))
    (State.doRetrain h port fullTrain))

/-- PROBE: answered when the probe ends (R307, R437, R440). -/
def execProbeMessage (h : MgmtHdr) (target : DeviceNo) (s : State) : Out :=
  .next (s.acceptMsg h 0x24 { roles := roleFabric } true fun s =>
    if s.fab.probeSent.isSome then s.reject h 0x24 0x0103
    else
      let s1 := s.sendProbe target
      { s1 with mgmt := { s1.mgmt with probe := some (msgOf h) } })

/-! ## Interfaces -/

/-- The management Ethernet link comes up or goes down (R434). -/
def execMgmtEthernetLink (up : Bool) (s : State) : Out :=
  .next { s with mgmt := { s.mgmt with status := { s.mgmt.status with ethUp := up } } }

/-- The tray controller assigns the dynamic I3C address (R434). -/
def execI3cDynamicAddress (addr : BitVec 7) (s : State) : Out :=
  .next { s with mgmt := { s.mgmt with dynAddr := addr, status := { s.mgmt.status with i3cDyn := true } } }

/-- IDCODE (R435). -/
def idcode (stepping : BitVec 4) : BitVec 32 := packFields [(28, 4, stepping.toNat), (12, 16, 0x9216), (1, 11, 0x4B7), (0, 1, 1)]

/-- A JTAG instruction is honoured (R435). -/
def State.jtagOk (s : State) : JtagOp → Bool
  | .idcode => true
  | .bypass => true
  | .sample => true
  | .extest => !s.lands.pkgResetN
  | .extestPulse => !s.lands.pkgResetN
  | .extestTrain => !s.lands.pkgResetN
  | .debug => s.mgmt.sec.debugOpen

/-- A JTAG instruction: one that is honoured is in force; IDCODE is then shifted out (R435). -/
def execJtagInstruction (op : JtagOp) (s : State) : Out :=
  if !s.jtagOk op then .next s
  else .next (s.updLands fun l => { l with jtag := op, jtagOut := if op = .idcode then idcode s.fuses.stepping else l.jtagOut })

/-- Answer an SPDM request: in SCRAPPED with an error, out of turn with an error, else as it asks (R447; log 28). -/
def State.spdm (s : State) (path : SpdmPath) (req : SpdmReq) : State :=
  let step := spdmStep req
  if s.fuses.lifecycle = 4 then s.spdmSend path (.error 5)
  else if s.spdmLevel path < step.1 then s.spdmSend path (.error 4)
  else
    let s1 := match step.2 with
      | none => s
      | some l => s.setSpdm path l
    s1.spdmSend path (s.spdmAnswer req)

/-- The wake source that a request on a transport is (R381, R447). -/
def SpdmPath.source : SpdmPath → WakeSrc
  | .doe b => if b then .pcieB else .pcieA
  | .mctp b => if b then .pcieB else .pcieA
  | .i3c => .management

/-- An SPDM request waits for firmware (R447). -/
def State.holdSpdm (s : State) (path : SpdmPath) (req : SpdmReq) : State :=
  { s with mgmt := { s.mgmt with spdmHeld := s.mgmt.spdmHeld ++ [(path, req)] } }

/-- SPDM_REQUEST: answered, or held until firmware runs; in PS3 and PS4 it wakes the package, where its wake source is
enabled, and is answered after the wake (R381, R447). -/
def execSpdmRequest (path : SpdmPath) (req : SpdmReq) (s : State) : Out :=
  if !s.pathUp path then .next s
  else if s.clocks.pkg == .ps3 || s.clocks.pkg == .ps4 then
    .next ((match s.wakeCode (SpdmPath.source path) with
      | none => s
      | some code => s.wakePackage code).holdSpdm path req)
  else if s.fwUp && s.mgmt.spdmHeld.isEmpty then .next (s.spdm path req) else .next (s.holdSpdm path req)

/-- Once firmware runs it answers the requests that waited, in the order received (R447). -/
def State.serveSpdm (s : State) : State :=
  if s.fwUp then s.mgmt.spdmHeld.foldl (fun s x => s.spdm x.1 x.2) { s with mgmt := { s.mgmt with spdmHeld := [] } } else s

end Sys2Proof.Machine
end

