-- ==== Sys2Proof/Machine/ImageEvents.lean ====
section
/-! DEFINITION. Management messages for images, activation, licences, keys, the life cycle and debug; a trial's seconds and its
confirmation (R436, R439, R440, R448 to R464). -/

namespace Sys2Proof.Machine

/-! ## Receiving an image -/

/-- An open transfer's key is still enrolled with the SERVICE role (R457, R463). -/
def State.transferLive (s : State) : Bool :=
  match s.mgmt.transfer with
  | none => true
  | some t => s.keyTakes t.key roleService

/-- A message that carries an image came over I3C, though the management Ethernet is the only path for images: it is refused, and
the code is unstated, so free (R434; log 8). -/
def State.rejectPath (s : State) (h : MgmtHdr) (type : Nat) : State := s.bump.reject h type (freeCode s.freeCtr)

/-- The inactive slot is erased and a header written; the transfer is open (R457). -/
def State.beginImage (s : State) (h : MgmtHdr) (i : Image) : State :=
  let b := !s.mgmt.fw.activeSlot
  let s1 := (s.setSlot b (some i)).setSlotValid b false
  let staged := if s1.mgmt.staged == some b then none else s1.mgmt.staged
  { s1 with mgmt := { s1.mgmt with transfer := some { key := h.key, i3c := h.i3c }, staged := staged } }

/-- IMAGE_BEGIN's effect (R453, R457). -/
def State.doImageBegin (h : MgmtHdr) (header : BitVec 2048) (s : State) : State :=
  let i : Image := { header := header }
  if h.i3c then s.rejectPath h 0x30
  else if !i.formOk then s.reject h 0x30 0x0102
  else if s.mgmt.trial.trial then s.reject h 0x30 0x0103
  else (s.beginImage h i).answer h 0x30 0 []

/-- IMAGE_BEGIN (R453, R457). -/
def execImageBegin (h : MgmtHdr) (header : BitVec 2048) (s : State) : Out :=
  .next (s.admitFw (.imageBegin h header) h 0x30 { roles := roleService } true (State.doImageBegin h header))

/-- Check 5 for IMAGE_DATA: a SERVICE key, or unsigned from the source of the open IMAGE_BEGIN; not once the transfer's key has
gone (R438, R457, R463). -/
def State.dataOk (s : State) (h : MgmtHdr) : Bool :=
  s.transferLive && (if h.key = 7 then (match s.mgmt.transfer with
    | none => false
    | some t => h.sigOk && t.i3c == h.i3c)
  else s.keyOk h 0x31 { roles := roleService })

/-- A part of a body is written to the inactive slot (R457). -/
def Image.put (i : Image) (offset : Nat) (bytes : List Byte) : Image :=
  { i with body := Mem.write i.body offset bytes, got := i.got ++ [(offset, bytes.length)] }

/-- IMAGE_DATA's effect: a part of the body, within BODY_LEN (R457). -/
def State.doImageData (h : MgmtHdr) (offset : BitVec 32) (bytes : List Byte) (s : State) : State :=
  let b := !s.mgmt.fw.activeSlot
  if h.i3c then s.rejectPath h 0x31
  else if s.mgmt.transfer.isNone then s.reject h 0x31 0x0103
  else match s.slot b with
    | none => s.reject h 0x31 0x0103
    | some i =>
      if i.bodyLen < offset.toNat + bytes.length then s.reject h 0x31 0x0102
      else (s.setSlot b (some (i.put offset.toNat bytes))).answer h 0x31 0 []

/-- IMAGE_DATA (R457). -/
def execImageData (h : MgmtHdr) (offset : BitVec 32) (bytes : List Byte) (s : State) : Out :=
  .next (s.admitWith h 0x31 (s.dataOk h) (decide (bytes.length ≤ 1016))
    (if s.fwFree then State.doImageData h offset bytes else fun s1 => s1.holdMsg (.imageData h offset bytes)))

/-- The code of IMAGE_END: signature or hash, security version, limit set or an incomplete body (R457). -/
def State.imageCode (s : State) (i : Image) (sigOk hashOk : Bool) : Code :=
  if !sigOk || !hashOk then 0x0601 else if !s.svnOk i then 0x0603 else if !s.limitsOk i || !i.complete then 0x0102 else 0

/-- IMAGE_END's effect: an image that passes is valid and staged; the transfer is over either way (R457). -/
def State.doImageEnd (h : MgmtHdr) (sigOk hashOk : Bool) (s : State) : State :=
  let b := !s.mgmt.fw.activeSlot
  if h.i3c then s.rejectPath h 0x32
  else if s.mgmt.transfer.isNone then s.reject h 0x32 0x0103
  else match s.slot b with
    | none => s.reject h 0x32 0x0103
    | some i =>
      let s1 := { s with mgmt := { s.mgmt with transfer := none } }
      let code := s.imageCode i sigOk hashOk
      if code ≠ 0 then s1.reject h 0x32 code
      else
        let s2 := s1.setSlotValid b true
        ({ s2 with mgmt := { s2.mgmt with staged := some b } }).answer h 0x32 0 []

/-- IMAGE_END (R457). -/
def execImageEnd (h : MgmtHdr) (sigOk hashOk : Bool) (s : State) : Out :=
  .next (s.admitWith h 0x32 (s.transferLive && s.keyOk h 0x32 { roles := roleService }) true
    (if s.fwFree then State.doImageEnd h sigOk hashOk else fun s1 => s1.holdMsg (.imageEnd h sigOk hashOk)))

/-- ACTIVATE's effect, as FW_ACTIVATE; it is answered when its work ends (R437, R458, R459). -/
def State.doActivate (h : MgmtHdr) (slot : Bool) (s : State) : State :=
  let code := s.activateCheck slot
  if code ≠ 0 then s.reject h 0x33 code
  else s.beginActivation { slot := slot, mb := none, msg := some (msgOf h), revert := none, start := s.time }

/-- ACTIVATE; a chip reset or switch-over in progress refuses it at once (R458, R459). -/
def execActivate (h : MgmtHdr) (slot : Bool) (s : State) : Out :=
  .next (s.acceptMsg h 0x33 { roles := roleService } true
    (if s.fwFree || s.host.service != 0 || s.boot.starting then State.doActivate h slot else fun s1 => s1.holdMsg (.activate h slot)))

/-! ## Licences, life cycle, keys -/

/-- LICENCE's effect (R452). -/
def State.doLicence (h : MgmtHdr) (bytes : List Byte) (sigOk : Bool) (s : State) : State :=
  let r := s.installLicence bytes sigOk
  r.1.settle h 0x34 r.2

/-- LICENCE (R452). -/
def execLicence (h : MgmtHdr) (bytes : List Byte) (sigOk : Bool) (s : State) : Out :=
  .next (s.admitFw (.licence h bytes sigOk) h 0x34 { roles := roleService } true (State.doLicence h bytes sigOk))

/-- Whose signature a transition needs: none, the Caerven service key, the owner key of the body, the owner (R449). -/
inductive ChangeBy where
  | service | body | owner
  deriving DecidableEq, Repr

/-- The transitions of R449. -/
def changeBy (life target : BitVec 3) : Option ChangeBy :=
  match life.toNat, target.toNat with
  | 0, 1 => some .service
  | 1, 2 => some .body
  | 2, 3 => some .owner
  | 3, 1 => some .service
  | 0, 4 => some .service
  | 1, 4 => some .service
  | 3, 4 => some .service
  | 2, 4 => some .owner
  | _, _ => none

/-- Check 5 for LIFECYCLE (R438, R449). -/
def State.changeOk (s : State) (h : MgmtHdr) (ownerSig : Bool) : ChangeBy → Bool
  | .service => h.key == 4 && s.keyOk h 0x35 {}
  | .owner => h.key == 0 && s.keyOk h 0x35 {}
  | .body => h.key == 0 && ownerSig && decide (s.lastCounter 0 < h.counter)

/-- A transition waits for no stream, chip reset, start, trial or other change; two of them need an unused owner fuse slot (R449). -/
def State.changeBusy (s : State) (target : BitVec 3) : Bool :=
  s.anyStream || s.rcv.chip.isSome || s.boot.starting || s.mgmt.trial.trial || s.mgmt.change.isSome
    || ((target == 2 || (target == 1 && s.fuses.lifecycle == 3)) && decide (4 ≤ s.fuses.ownerSlotsUsed.toNat))

/-- LIFECYCLE's effect (R449, R450). -/
def State.doLifecycle (h : MgmtHdr) (target : BitVec 3) (ownerKey : BitVec 256) (s : State) : State :=
  if s.changeBusy target then s.reject h 0x35 0x0103 else s.beginChange target (msgOf h) ownerKey

/-- LIFECYCLE: a target without a transition gives 0x0604; a chip reset in progress refuses it at once (R448 to R450). -/
def execLifecycle (h : MgmtHdr) (target : BitVec 3) (ownerKey : BitVec 256) (ownerSig : Bool) (s : State) : Out :=
  match changeBy s.fuses.lifecycle target with
  | none =>
    if s.hears h && h.formOk && h.destTag == s.fuses.serialTag then .next (s.reject h 0x35 0x0604)
    else .next (s.admitWith h 0x35 false true id)
  | some who => .next (s.admitWith h 0x35 (s.changeOk h ownerSig who) true
      (if s.fwFree || s.boot.starting then State.doLifecycle h target ownerKey
        else fun s1 => s1.holdMsg (.lifecycle h target ownerKey)))

/-- A transfer whose key a KEY_SET takes away can no longer go on (R463). -/
def Transfer.keySet (t : Transfer) (slot : Nat) (same : Bool) : Transfer := if t.key.toNat = slot ∧ same = false then { t with key := 5 } else t

/-- A controller key record is written or, with no role, removed (R439, R440); measurement 7 is replaced (R446). -/
def State.setKey (s : State) (i : Fin 3) (roles : BitVec 3) (key : BitVec 256) : State :=
  let rec1 : Option KeyRec := if roles = 0 then none else some { roles := roles, key := key, signedBy := s.fuses.owner }
  let same : Bool := (s.keyAt i).any fun old => old.key == key && roles &&& roleService != 0
  let s1 := { s with flash := { s.flash with keys := s.flash.keys.set i rec1 } }
  let s2 := { s1 with mgmt := { s1.mgmt with transfer := s1.mgmt.transfer.map fun (t : Transfer) => t.keySet (i.val + 1) same } }
  s2.measureKeys.showSec

/-- KEY_SET's effect (R439, R440). -/
def State.doKeySet (h : MgmtHdr) (slot : BitVec 2) (roles : BitVec 3) (key : BitVec 256) (s : State) : State :=
  (s.setKey (toFin 3 (slot.toNat - 1)) roles key).answer h 0x36 0 []

/-- KEY_SET, of the owner (R439, R440). -/
def execKeySet (h : MgmtHdr) (slot : BitVec 2) (roles : BitVec 3) (key : BitVec 256) (s : State) : Out :=
  .next (s.admitFw (.keySet h slot roles key) h 0x36 {} (slot != 0) (State.doKeySet h slot roles key))

/-- DEFECT_EDIT's effect: the entry with these bytes leaves the field defect log; the next start maps without it (R390,
R440). -/
def State.doDefectEdit (h : MgmtHdr) (entry : BitVec 96) (s : State) : State :=
  if s.flash.defects.any fun e => e.word == entry then
    ({ s with flash := { s.flash with defects := s.flash.defects.filter fun e => e.word != entry } }).answer h 0x37 0 []
  else s.reject h 0x37 0x0102

/-- DEFECT_EDIT (R390, R440). -/
def execDefectEdit (h : MgmtHdr) (entry : BitVec 96) (s : State) : Out :=
  .next (s.admitFw (.defectEdit h entry) h 0x37 { roles := roleService } true (State.doDefectEdit h entry))

/-- DEBUG_UNLOCK's effect: in RETURNED debug opens until the next chip reset (R440, R448). -/
def State.doDebugUnlock (h : MgmtHdr) (s : State) : State :=
  ({ s with mgmt := { s.mgmt with sec := { s.mgmt.sec with debugOpen := true } } }).answer h 0x38 0 []

/-- DEBUG_UNLOCK (R440, R448). -/
def execDebugUnlock (h : MgmtHdr) (s : State) : Out :=
  .next (s.admitFw (.debugUnlock h) h 0x38 { roles := roleService } true (State.doDebugUnlock h))

/-! ## Trial -/

/-- Every condition of R460 that the state shows. -/
def State.healthy (s : State) : Bool := decide (120 ≤ s.mgmt.trialClear) && s.mgmt.trial.cpbTested && decide (60 ≤ s.mgmt.noStall)

/-- A second of a trial is counted (R460). -/
def State.countTrial (s : State) : State :=
  let r := s.bootRec
  let s1 := s.writeBoot { r with trialSeconds := satInc r.trialSeconds }
  let s2 := { s1 with mgmt := { s1.mgmt with trialClear := s1.mgmt.trialClear + 1, noStall := s1.mgmt.noStall + 1 } }
  let s3 := s2.showTrial
  { s3 with mgmt := { s3.mgmt with trial := { s3.mgmt.trial with healthOk := s2.healthy } } }

/-- A trial runs in working firmware. -/
def State.trialRuns (s : State) : Bool := s.cpOn && s.fwLive && s.mgmt.trial.trial

/-- TRIAL_TICK: a second of operation of a trial; at 600 s it reverts with cause 0, as one does that met a second switch-over
and waited for its streams to end (R460, R462). -/
def execTrialTick (s : State) : Out :=
  if !s.trialRuns then .next s
  else
    let s1 := s.countTrial
    .next (if 600 ≤ s1.bootRec.trialSeconds.toNat ∨ 2 ≤ s1.mgmt.trialSwitches then s1.revert 0 else s1)

/-- A trial image confirms: the counter advances, TRIAL becomes 0, the settings in the old
format are erased (R454, R460). -/
def State.confirm (s : State) : State :=
  let svn := if s.fuses.svn.toNat < s.mgmt.fw.svn.toNat then s.mgmt.fw.svn else s.fuses.svn
  let s1 := ({ s with fuses := { s.fuses with svn := svn } }).writeBoot { s.bootRec with trial := false }
  let s2 := ((s1.eraseFormat s.bootRec.oldFormat s.mgmt.format).recheckSlots.measureSvn.showSec).showTrial
  { s2 with mgmt := { s2.mgmt with trial := { s2.mgmt.trial with healthOk := false } } }

/-- IMAGE_CONFIRM (R460). -/
def execImageConfirm (s : State) : Out := if s.trialRuns && s.healthy then .next s.confirm else .next s

/-! ## Messages that waited -/

/-- The effect of a message that waited for firmware (R437, R438; log 67). -/
def State.performMsg (s : State) : HeldMsg → State
  | .coordSet h device => s.doCoordSet h device
  | .ownerSet h part owner chip => s.doOwnerSet h part owner chip
  | .portSet h port expect fullTrain => s.doPortSet h port expect fullTrain
  | .standIn h port role => s.doStandIn h port role
  | .retrain h port fullTrain => s.doRetrain h port fullTrain
  | .imageBegin h header => s.doImageBegin h header
  | .imageData h offset bytes => s.doImageData h offset bytes
  | .imageEnd h sigOk hashOk => s.doImageEnd h sigOk hashOk
  | .activate h slot => s.doActivate h slot
  | .licence h bytes sigOk => s.doLicence h bytes sigOk
  | .lifecycle h target ownerKey => s.doLifecycle h target ownerKey
  | .keySet h slot roles key => s.doKeySet h slot roles key
  | .defectEdit h entry => s.doDefectEdit h entry
  | .debugUnlock h => s.doDebugUnlock h

/-- Firmware acts on the messages that waited, in the order received, for as long as it runs (R438; log 67). -/
def State.serveMessages (s : State) : State :=
  s.mgmt.held.foldl (fun s i => if s.fwFree then s.performMsg i else s.holdMsg i) { s with mgmt := { s.mgmt with held := [] } }

end Sys2Proof.Machine
end

