-- ==== Sys2Proof/Machine/Dispatch.lean ====
section
/-! DEFINITION. The dispatch: one arm for each command. -/

namespace Sys2Proof.Machine

/-- The effect of a command on everything but the queue. -/
def exec (i : Instr) (s : State) : Host.Outcome State Fault Refusal :=
  match i with
  | .nop iss rsvd => Sys2Proof.Machine.execNop iss rsvd s
  | .add iss d a b => Sys2Proof.Machine.execAdd iss d a b s
  | .sub iss d a b => Sys2Proof.Machine.execSub iss d a b s
  | .and iss d a b => Sys2Proof.Machine.execAnd iss d a b s
  | .or iss d a b => Sys2Proof.Machine.execOr iss d a b s
  | .xor iss d a b => Sys2Proof.Machine.execXor iss d a b s
  | .shl iss d a b => Sys2Proof.Machine.execShl iss d a b s
  | .shr iss d a b => Sys2Proof.Machine.execShr iss d a b s
  | .sar iss d a b => Sys2Proof.Machine.execSar iss d a b s
  | .mul iss d a b => Sys2Proof.Machine.execMul iss d a b s
  | .mulhu iss d a b => Sys2Proof.Machine.execMulhu iss d a b s
  | .slt iss d a b => Sys2Proof.Machine.execSlt iss d a b s
  | .sltu iss d a b => Sys2Proof.Machine.execSltu iss d a b s
  | .addi iss d a imm => Sys2Proof.Machine.execAddi iss d a imm s
  | .andi iss d a imm => Sys2Proof.Machine.execAndi iss d a imm s
  | .ori iss d a imm => Sys2Proof.Machine.execOri iss d a imm s
  | .shli iss d a imm => Sys2Proof.Machine.execShli iss d a imm s
  | .lui iss d imm => Sys2Proof.Machine.execLui iss d imm s
  | .ld iss d a imm => Sys2Proof.Machine.execLd iss d a imm s
  | .st iss d a imm => Sys2Proof.Machine.execSt iss d a imm s
  | .beq iss a b imm => Sys2Proof.Machine.execBeq iss a b imm s
  | .bne iss a b imm => Sys2Proof.Machine.execBne iss a b imm s
  | .blt iss a b imm => Sys2Proof.Machine.execBlt iss a b imm s
  | .bltu iss a b imm => Sys2Proof.Machine.execBltu iss a b imm s
  | .jal iss d offset => Sys2Proof.Machine.execJal iss d offset s
  | .jr iss d a rsvd => Sys2Proof.Machine.execJr iss d a rsvd s
  | .mdload iss slot rsvd a imm => Sys2Proof.Machine.execMdload iss slot rsvd a imm s
  | .mma iss slot rsvd => Sys2Proof.Machine.execMma iss slot rsvd s
  | .matrixOperationComplete part core => Sys2Proof.Machine.execMatrixOperationComplete part core s
  | .waitm iss rsvd imm => Sys2Proof.Machine.execWaitm iss rsvd imm s
  | .vadd iss vd va vb => Sys2Proof.Machine.execVadd iss vd va vb s
  | .vsub iss vd va vb => Sys2Proof.Machine.execVsub iss vd va vb s
  | .vmul iss vd va vb => Sys2Proof.Machine.execVmul iss vd va vb s
  | .vfma iss vd va vb vc => Sys2Proof.Machine.execVfma iss vd va vb vc s
  | .vmin iss vd va vb => Sys2Proof.Machine.execVmin iss vd va vb s
  | .vmax iss vd va vb => Sys2Proof.Machine.execVmax iss vd va vb s
  | .vabs iss vd va => Sys2Proof.Machine.execVabs iss vd va s
  | .vneg iss vd va => Sys2Proof.Machine.execVneg iss vd va s
  | .vrcp iss vd va => Sys2Proof.Machine.execVrcp iss vd va s
  | .vrsq iss vd va => Sys2Proof.Machine.execVrsq iss vd va s
  | .vexp2 iss vd va => Sys2Proof.Machine.execVexp2 iss vd va s
  | .vlog2 iss vd va => Sys2Proof.Machine.execVlog2 iss vd va s
  | .vrsum iss vd va => Sys2Proof.Machine.execVrsum iss vd va s
  | .vbcast iss vd va rsvd => Sys2Proof.Machine.execVbcast iss vd va rsvd s
  | .vmov iss vd va => Sys2Proof.Machine.execVmov iss vd va s
  | .vcvt iss vd va vb vc => Sys2Proof.Machine.execVcvt iss vd va vb vc s
  | .vxadd iss vd va vb => Sys2Proof.Machine.execVxadd iss vd va vb s
  | .vld iss d a imm => Sys2Proof.Machine.execVld iss d a imm s
  | .vst iss d a imm => Sys2Proof.Machine.execVst iss d a imm s
  | .qpush iss va q n fin rsvd => Sys2Proof.Machine.execQpush iss va q n fin rsvd s
  | .qpop iss d q n rsvd => Sys2Proof.Machine.execQpop iss d q n rsvd s
  | .qcount iss d q rsvd => Sys2Proof.Machine.execQcount iss d q rsvd s
  | .put iss a b count => Sys2Proof.Machine.execPut iss a b count s
  | .radd iss a b count => Sys2Proof.Machine.execRadd iss a b count s
  | .dmaq iss ch rsvd a imm => Sys2Proof.Machine.execDmaq iss ch rsvd a imm s
  | .fence iss rsvd imm => Sys2Proof.Machine.execFence iss rsvd imm s
  | .bar iss rsvd imm => Sys2Proof.Machine.execBar iss rsvd imm s
  | .rampWaveEnable cluster wave => Sys2Proof.Machine.execRampWaveEnable cluster wave s
  | .clusterQuiet cluster => Sys2Proof.Machine.execClusterQuiet cluster s
  | .issueLevelArrival cluster => Sys2Proof.Machine.execIssueLevelArrival cluster s
  | .waitt iss rsvd imm => Sys2Proof.Machine.execWaitt iss rsvd imm s
  | .csrr iss d rsvd imm => Sys2Proof.Machine.execCsrr iss d rsvd imm s
  | .csrw iss rsvd a imm => Sys2Proof.Machine.execCsrw iss rsvd a imm s
  | .endContext iss rsvd => Sys2Proof.Machine.execEndContext iss rsvd s
  | .trap iss rsvd imm => Sys2Proof.Machine.execTrap iss rsvd imm s
  | .coreFaultReport part core => Sys2Proof.Machine.execCoreFaultReport part core s
  | .coreHalt part core halt => Sys2Proof.Machine.execCoreHalt part core halt s
  | .sramScrub part cluMem unit line errs => Sys2Proof.Machine.execSramScrub part cluMem unit line errs s
  | .granuleRead src part addr errs => Sys2Proof.Machine.execGranuleRead src part addr errs s
  | .granuleWrite r errs => Sys2Proof.Machine.execGranuleWrite r errs s
  | .stackRadd r errs => Sys2Proof.Machine.execStackRadd r errs s
  | .localRadd r errs => Sys2Proof.Machine.execLocalRadd r errs s
  | .pageCopyComplete stack => Sys2Proof.Machine.execPageCopyComplete stack s
  | .historyExpiry stack => Sys2Proof.Machine.execHistoryExpiry stack s
  | .sweepPage part stack page => Sys2Proof.Machine.execSweepPage part stack page s
  | .genAdvanceDeferred part => Sys2Proof.Machine.execGenAdvanceDeferred part s
  | .patrolRead stack granule errs => Sys2Proof.Machine.execPatrolRead stack granule errs s
  | .mcTempRead stack reading => Sys2Proof.Machine.execMcTempRead stack reading s
  | .fullFillEnd stack => Sys2Proof.Machine.execFullFillEnd stack s
  | .queueWordArrival p k => Sys2Proof.Machine.execQueueWordArrival p k s
  | .qinEnable part core q cfg src vector => Sys2Proof.Machine.execQinEnable part core q cfg src vector s
  | .qoutBind part core q dst => Sys2Proof.Machine.execQoutBind part core q dst s
  | .qinFlush part core q reason => Sys2Proof.Machine.execQinFlush part core q reason s
  | .qinReset part core q => Sys2Proof.Machine.execQinReset part core q s
  | .hqHeadWrite host part slot value => Sys2Proof.Machine.execHqHeadWrite host part slot value s
  | .hqTailAdvance part slot => Sys2Proof.Machine.execHqTailAdvance part slot s
  | .dmaDescriptorComplete cluster ch => Sys2Proof.Machine.execDmaDescriptorComplete cluster ch s
  | .dmaRequestTimeout cluster ch piece => Sys2Proof.Machine.execDmaRequestTimeout cluster ch piece s
  | .dmaEngineStopped cluster => Sys2Proof.Machine.execDmaEngineStopped cluster s
  | .resume cluster ch => Sys2Proof.Machine.execResume cluster ch s
  | .cancel cluster ch => Sys2Proof.Machine.execCancel cluster ch s
  | .irqPendingClear cluster ch => Sys2Proof.Machine.execIrqPendingClear cluster ch s
  | .dmaCancelEnd cluster ch => Sys2Proof.Machine.execDmaCancelEnd cluster ch s
  | .pciePortReset host kind => Sys2Proof.Machine.execPciePortReset host kind s
  | .bar2Read host offset len => Sys2Proof.Machine.execBar2Read host offset len s
  | .bar2Write host offset bytes ep => Sys2Proof.Machine.execBar2Write host offset bytes ep s
  | .registerWrite host a => Sys2Proof.Machine.execRegisterWrite host a s
  | .mbPost host mb => Sys2Proof.Machine.execMbPost host mb s
  | .mbFree host mb => Sys2Proof.Machine.execMbFree host mb s
  | .mailboxScan => Sys2Proof.Machine.execMailboxScan s
  | .nopCommand mb => Sys2Proof.Machine.execNopCommand mb s
  | .query mb => Sys2Proof.Machine.execQuery mb s
  | .streamStart mb => Sys2Proof.Machine.execStreamStart mb s
  | .streamAbort mb => Sys2Proof.Machine.execStreamAbort mb s
  | .stratumRegister mb => Sys2Proof.Machine.execStratumRegister mb s
  | .stratumDrop mb => Sys2Proof.Machine.execStratumDrop mb s
  | .dmaResume mb => Sys2Proof.Machine.execDmaResume mb s
  | .dmaIrqBind mb => Sys2Proof.Machine.execDmaIrqBind mb s
  | .journalRead mb => Sys2Proof.Machine.execJournalRead mb s
  | .partReset mb => Sys2Proof.Machine.execPartReset mb s
  | .dumpRelease mb => Sys2Proof.Machine.execDumpRelease mb s
  | .energyRead mb => Sys2Proof.Machine.execEnergyRead mb s
  | .layoutSet mb => Sys2Proof.Machine.execLayoutSet mb s
  | .partAssign mb => Sys2Proof.Machine.execPartAssign mb s
  | .chipOwnerSet mb => Sys2Proof.Machine.execChipOwnerSet mb s
  | .chipReset mb => Sys2Proof.Machine.execChipReset mb s
  | .powerCycle mb => Sys2Proof.Machine.execPowerCycle mb s
  | .fwActivate mb => Sys2Proof.Machine.execFwActivate mb s
  | .licenceInstall mb sigOk => Sys2Proof.Machine.execLicenceInstall mb sigOk s
  | .evtHeadWrite host log value => Sys2Proof.Machine.execEvtHeadWrite host log value s
  | .streamBegin part => Sys2Proof.Machine.execStreamBegin part s
  | .operationComplete part op => Sys2Proof.Machine.execOperationComplete part op s
  | .launch part op => Sys2Proof.Machine.execLaunch part op s
  | .dmaOperation part op => Sys2Proof.Machine.execDmaOperation part op s
  | .queueSetup part op => Sys2Proof.Machine.execQueueSetup part op s
  | .streamFence part op => Sys2Proof.Machine.execStreamFence part op s
  | .barrier part op => Sys2Proof.Machine.execBarrier part op s
  | .barrierTimeout part op => Sys2Proof.Machine.execBarrierTimeout part op s
  | .collectiveStart part op => Sys2Proof.Machine.execCollectiveStart part op s
  | .hintHeavy part op => Sys2Proof.Machine.execHintHeavy part op s
  | .hintExpiry part => Sys2Proof.Machine.execHintExpiry part s
  | .stratumLoad part op => Sys2Proof.Machine.execStratumLoad part op s
  | .stratumSwitch part op => Sys2Proof.Machine.execStratumSwitch part op s
  | .switchRestoreDone part => Sys2Proof.Machine.execSwitchRestoreDone part s
  | .energyCheckpoint part op => Sys2Proof.Machine.execEnergyCheckpoint part op s
  | .packetForward place idx => Sys2Proof.Machine.execPacketForward place idx s
  | .write p => Sys2Proof.Machine.execWrite p s
  | .raddRequest p => Sys2Proof.Machine.execRaddRequest p s
  | .read p => Sys2Proof.Machine.execRead p s
  | .mwrite port p => Sys2Proof.Machine.execMwrite port p s
  | .wack p => Sys2Proof.Machine.execWack p s
  | .rdata p => Sys2Proof.Machine.execRdata p s
  | .refuse p => Sys2Proof.Machine.execRefuse p s
  | .grant p => Sys2Proof.Machine.execGrant p s
  | .credit p => Sys2Proof.Machine.execCredit p s
  | .qack p => Sys2Proof.Machine.execQack p s
  | .qword p => Sys2Proof.Machine.execQword p s
  | .hopCredit port p => Sys2Proof.Machine.execHopCredit port p s
  | .hopCreditTimer port => Sys2Proof.Machine.execHopCreditTimer port s
  | .handover port p => Sys2Proof.Machine.execHandover port p s
  | .grantReq p => Sys2Proof.Machine.execGrantReq p s
  | .notice p => Sys2Proof.Machine.execNotice p s
  | .barrierArrival p => Sys2Proof.Machine.execBarrierArrival p s
  | .probe p => Sys2Proof.Machine.execProbe p s
  | .probeStart device => Sys2Proof.Machine.execProbeStart device s
  | .probeTimeout => Sys2Proof.Machine.execProbeTimeout s
  | .replySlotExpiry part unit slot => Sys2Proof.Machine.execReplySlotExpiry part unit slot s
  | .rateLimitIncrease dest => Sys2Proof.Machine.execRateLimitIncrease dest s
  | .rateLimiterFree dest => Sys2Proof.Machine.execRateLimiterFree dest s
  | .histSample => Sys2Proof.Machine.execHistSample s
  | .flip h => Sys2Proof.Machine.execFlip h s
  | .settle h => Sys2Proof.Machine.execSettle h s
  | .idle port rx => Sys2Proof.Machine.execIdle port rx s
  | .nak port rx => Sys2Proof.Machine.execNak port rx s
  | .replayTimeout port => Sys2Proof.Machine.execReplayTimeout port s
  | .ackTimer port => Sys2Proof.Machine.execAckTimer port s
  | .cellReceive port rx => Sys2Proof.Machine.execCellReceive port rx s
  | .ident port rx => Sys2Proof.Machine.execIdent port rx s
  | .identSend port => Sys2Proof.Machine.execIdentSend port s
  | .portTrain port => Sys2Proof.Machine.execPortTrain port s
  | .acceptanceTest port measured errs settings => Sys2Proof.Machine.execAcceptanceTest port measured errs settings s
  | .trainingFallback port => Sys2Proof.Machine.execTrainingFallback port s
  | .portRetrainTimer port => Sys2Proof.Machine.execPortRetrainTimer port s
  | .laneFailing port lane lockLost => Sys2Proof.Machine.execLaneFailing port lane lockLost s
  | .laneSwap port rx count => Sys2Proof.Machine.execLaneSwap port rx count s
  | .swapAck port rx => Sys2Proof.Machine.execSwapAck port rx s
  | .laneSwapSwitch port tx => Sys2Proof.Machine.execLaneSwapSwitch port tx s
  | .swapTimeout port => Sys2Proof.Machine.execSwapTimeout port s
  | .down port rx => Sys2Proof.Machine.execDown port rx s
  | .portFail port cause => Sys2Proof.Machine.execPortFail port cause s
  | .reportWaitExpiry port => Sys2Proof.Machine.execReportWaitExpiry port s
  | .handoverEnd port => Sys2Proof.Machine.execHandoverEnd port s
  | .rackRefLoss => Sys2Proof.Machine.execRackRefLoss s
  | .rackRefReturn => Sys2Proof.Machine.execRackRefReturn s
  | .pllRefSwitch => Sys2Proof.Machine.execPllRefSwitch s
  | .bedrockTrim => Sys2Proof.Machine.execBedrockTrim s
  | .rackSync => Sys2Proof.Machine.execRackSync s
  | .ps1Entry part => Sys2Proof.Machine.execPs1Entry part s
  | .ps2Entry part => Sys2Proof.Machine.execPs2Entry part s
  | .ps3Entry => Sys2Proof.Machine.execPs3Entry s
  | .ps4Entry => Sys2Proof.Machine.execPs4Entry s
  | .wake src => Sys2Proof.Machine.execWake src s
  | .stageEnd r => Sys2Proof.Machine.execStageEnd r s
  | .s3Retry pllOk hot => Sys2Proof.Machine.execS3Retry pllOk hot s
  | .coldStart wholeOnly addr => Sys2Proof.Machine.execColdStart wholeOnly addr s
  | .pwrGood => Sys2Proof.Machine.execPwrGood s
  | .railLoss hbm => Sys2Proof.Machine.execRailLoss hbm s
  | .railLossRestart => Sys2Proof.Machine.execRailLossRestart s
  | .bedrockLoss => Sys2Proof.Machine.execBedrockLoss s
  | .pkgResetN asserted => Sys2Proof.Machine.execPkgResetN asserted s
  | .flashGnt slotsOk => Sys2Proof.Machine.execFlashGnt slotsOk s
  | .flashGrantTimeout => Sys2Proof.Machine.execFlashGrantTimeout s
  | .powerEstimatePass counts => Sys2Proof.Machine.execPowerEstimatePass counts s
  | .calibrationPass measured => Sys2Proof.Machine.execCalibrationPass measured s
  | .capUnreachable => Sys2Proof.Machine.execCapUnreachable s
  | .slowLoop => Sys2Proof.Machine.execSlowLoop s
  | .vfStep => Sys2Proof.Machine.execVfStep s
  | .vrComplete => Sys2Proof.Machine.execVrComplete s
  | .vrTimeout => Sys2Proof.Machine.execVrTimeout s
  | .droopDetect cluster => Sys2Proof.Machine.execDroopDetect cluster s
  | .droopStretchEnd cluster => Sys2Proof.Machine.execDroopStretchEnd cluster s
  | .trimStart => Sys2Proof.Machine.execTrimStart s
  | .trimEnd measured => Sys2Proof.Machine.execTrimEnd measured s
  | .junctionSensorRead cluster sensor reading => Sys2Proof.Machine.execJunctionSensorRead cluster sensor reading s
  | .sensorFaulty cluster pair => Sys2Proof.Machine.execSensorFaulty cluster pair s
  | .thermalPass => Sys2Proof.Machine.execThermalPass s
  | .stackBwPass stack => Sys2Proof.Machine.execStackBwPass stack s
  | .coolantEmergency stack => Sys2Proof.Machine.execCoolantEmergency stack s
  | .headroomPass => Sys2Proof.Machine.execHeadroomPass s
  | .pwrBrake asserted => Sys2Proof.Machine.execPwrBrake asserted s
  | .coolAlert asserted => Sys2Proof.Machine.execCoolAlert asserted s
  | .coolAlertRelease => Sys2Proof.Machine.execCoolAlertRelease s
  | .thermalTrip field a b c => Sys2Proof.Machine.execThermalTrip field a b c s
  | .electricalTrip monitor votes faults => Sys2Proof.Machine.execElectricalTrip monitor votes faults s
  | .thermalCycleSample => Sys2Proof.Machine.execThermalCycleSample s
  | .cycleCountSave => Sys2Proof.Machine.execCycleCountSave s
  | .powerStall => Sys2Proof.Machine.execPowerStall s
  | .contextWatchdog part => Sys2Proof.Machine.execContextWatchdog part s
  | .engineWatchdog part core => Sys2Proof.Machine.execEngineWatchdog part core s
  | .partitionPoll part answers => Sys2Proof.Machine.execPartitionPoll part answers s
  | .partitionWatchdog part cluster => Sys2Proof.Machine.execPartitionWatchdog part cluster s
  | .escalationOverrun part core => Sys2Proof.Machine.execEscalationOverrun part core s
  | .contextAbortEnd part core tiles => Sys2Proof.Machine.execContextAbortEnd part core tiles s
  | .dump part => Sys2Proof.Machine.execDump part s
  | .debugReadTimeout part record => Sys2Proof.Machine.execDebugReadTimeout part record s
  | .dumpBudgetExpiry part record => Sys2Proof.Machine.execDumpBudgetExpiry part record s
  | .dumpEnd part => Sys2Proof.Machine.execDumpEnd part s
  | .meshDrainDone part => Sys2Proof.Machine.execMeshDrainDone part s
  | .cpWdPet => Sys2Proof.Machine.execCpWdPet s
  | .cpWatchdog => Sys2Proof.Machine.execCpWatchdog s
  | .cpUncorrected => Sys2Proof.Machine.execCpUncorrected s
  | .cpbSelfTest passed imageOk => Sys2Proof.Machine.execCpbSelfTest passed imageOk s
  | .cpaSelfTest passed => Sys2Proof.Machine.execCpaSelfTest passed s
  | .handback => Sys2Proof.Machine.execHandback s
  | .bedrockSramError line => Sys2Proof.Machine.execBedrockSramError line s
  | .heartbeat h => Sys2Proof.Machine.execHeartbeat h s
  | .heartbeatMiss => Sys2Proof.Machine.execHeartbeatMiss s
  | .counterSave => Sys2Proof.Machine.execCounterSave s
  | .telemetryFetch h select part seq => Sys2Proof.Machine.execTelemetryFetch h select part seq s
  | .coordSet h device => Sys2Proof.Machine.execCoordSet h device s
  | .capSet h mask rackCap brakeW brakeLevel orphanPct => Sys2Proof.Machine.execCapSet h mask rackCap brakeW brakeLevel orphanPct s
  | .trayCap h cap => Sys2Proof.Machine.execTrayCap h cap s
  | .coolant h temp => Sys2Proof.Machine.execCoolant h temp s
  | .rails h powers => Sys2Proof.Machine.execRails h powers s
  | .powerConfig h fixedEn fixedStep boostEn hintMargin droopMv stallLevel => Sys2Proof.Machine.execPowerConfig h fixedEn fixedStep boostEn hintMargin droopMv stallLevel s
  | .timeSet h load period arm => Sys2Proof.Machine.execTimeSet h load period arm s
  | .ownerSet h part owner chip => Sys2Proof.Machine.execOwnerSet h part owner chip s
  | .stateSet h ps3En ps4 => Sys2Proof.Machine.execStateSet h ps3En ps4 s
  | .reset h kind => Sys2Proof.Machine.execReset h kind s
  | .routeWrite h bank first count entries => Sys2Proof.Machine.execRouteWrite h bank first count entries s
  | .fabricConfig h ring arb cong link => Sys2Proof.Machine.execFabricConfig h ring arb cong link s
  | .portSet h port expect fullTrain => Sys2Proof.Machine.execPortSet h port expect fullTrain s
  | .standIn h port role => Sys2Proof.Machine.execStandIn h port role s
  | .retrain h port fullTrain => Sys2Proof.Machine.execRetrain h port fullTrain s
  | .probeMessage h target => Sys2Proof.Machine.execProbeMessage h target s
  | .imageBegin h header => Sys2Proof.Machine.execImageBegin h header s
  | .imageData h offset bytes => Sys2Proof.Machine.execImageData h offset bytes s
  | .imageEnd h sigOk hashOk => Sys2Proof.Machine.execImageEnd h sigOk hashOk s
  | .activate h slot => Sys2Proof.Machine.execActivate h slot s
  | .licence h bytes sigOk => Sys2Proof.Machine.execLicence h bytes sigOk s
  | .lifecycle h target ownerKey ownerSig => Sys2Proof.Machine.execLifecycle h target ownerKey ownerSig s
  | .keySet h slot roles key => Sys2Proof.Machine.execKeySet h slot roles key s
  | .defectEdit h entry => Sys2Proof.Machine.execDefectEdit h entry s
  | .debugUnlock h => Sys2Proof.Machine.execDebugUnlock h s
  | .spdmRequest path req => Sys2Proof.Machine.execSpdmRequest path req s
  | .jtagInstruction op => Sys2Proof.Machine.execJtagInstruction op s
  | .trialTick => Sys2Proof.Machine.execTrialTick s
  | .imageConfirm => Sys2Proof.Machine.execImageConfirm s
  | .dmaRequestIssue cluster ch => Sys2Proof.Machine.execDmaRequestIssue cluster ch s
  | .inboundMeshAccess r => Sys2Proof.Machine.execInboundMeshAccess r s
  | .pcieLinkUp host => Sys2Proof.Machine.execPcieLinkUp host s
  | .coolantTimeout => Sys2Proof.Machine.execCoolantTimeout s
  | .guardBandRise => Sys2Proof.Machine.execGuardBandRise s
  | .tripCoreEnRelease => Sys2Proof.Machine.execTripCoreEnRelease s
  | .mgmtEthernetLink up => Sys2Proof.Machine.execMgmtEthernetLink up s
  | .i3cDynamicAddress addr => Sys2Proof.Machine.execI3cDynamicAddress addr s

end Sys2Proof.Machine
end

