-- ==== Sys2Proof/Machine/Tick.lean ====
section
/-! DEFINITION. What happens while no command waits: rack time goes on by one tick, the ports serve the accesses that they
hold, and firmware the messages and requests that waited for it (R185, R186, R369, R372, R373, R380, R438, R447; log 2). -/

namespace Sys2Proof.Machine

/-- The nanoseconds that a reference edge adds: 6, 7, 6, 7 and 6 in turn (R372). -/
def edgeStep (e : Fin 5) : Nat := if e.val % 2 = 0 then 6 else 7

/-- What an edge's increment adds and what remains to absorb: only the part beyond the error is added (R373). -/
def absorbed (inc left : Nat) : Nat × Nat := if inc ≤ left then (0, left - inc) else (inc - left, 0)

/-- One reference edge: rack time advances by the increment less what it withholds (R372, R373). -/
def State.refEdge (s : State) : State :=
  let c := s.clocks
  let r := absorbed (edgeStep c.edge) c.absorb
  { s with time := s.time + BitVec.ofNat 64 r.1, clocks := { c with edge := c.edge + 1, absorb := r.2 } }

/-- Rack time by one tick: a reference edge while the reference is present, a bedrock tick of 250 ns otherwise; with no
bedrock rail no time passes (R369, R372). -/
def State.tickTime (s : State) : State :=
  if !s.lands.bedrockPg then s
  else if s.clocks.clk.refRack then s.refEdge
  else { s with time := s.time + 250 }

/-- One tick: rack time goes on, each port serves what it holds and may now serve, and firmware what waited for it (log 2). -/
def State.tick (s : State) : State :=
  (((((s.tickTime.serveResting false).serveResting true).serveHeld false).serveHeld true).serveMessages).serveSpdm

end Sys2Proof.Machine
end

