-- ==== Sys2Proof/WellFormed.lean ====
section
/-! DEFINITION. Which commands the hardware can produce at all: the ranges of their numbers and the lengths of their contents. -/

namespace Sys2Proof

/-- Symbol errors name distinct symbols of a codeword of 136, each with a difference of 16 bits that is not zero (R121). -/
def errsOk (es : SymErrs) : Bool :=
  (es.all fun e => decide (e.1 < 136) && decide (1 ≤ e.2) && decide (e.2 < 65536))
    && decide (es.Pairwise fun a b => a.1 ≠ b.1)

/-- A chip mailbox is one of 16, a partition mailbox one of 64 (R190). -/
def MbId.wf (m : MbId) : Bool := !m.chip || (decide (m.n.val < 16) && m.part == 0)

/-- A packet carries at most 8 data cells (R275). -/
def Pkt.wf (p : Pkt) : Bool := decide (p.data.length ≤ 8)

/-- A request on the mesh stays within one granule of stacked memory or one line of an SRAM, within its space (R27, R110,
R118). -/
def MeshReq.wf (r : MeshReq) : Bool :=
  let unit := if r.space = 0 then 256 else 64
  let room := if r.space = 0 then 2 ^ 40 else if r.space = 1 then 2 ^ 21 else 2 ^ 24
  r.space != 3 && !r.bytes.isEmpty && decide (r.addr % unit + r.bytes.length ≤ unit) && decide (r.addr + r.bytes.length ≤ room)

/-- A scrub names a unit and a line of a partition of at most 32 clusters of 32 cores (R79, R92, R139). -/
def scrubOk (cluMem : Bool) (unit line : Nat) : Bool :=
  if cluMem then decide (unit < 32) && decide (line < 2 ^ 18) else decide (unit < 1024) && decide (line < 2 ^ 15)

/-- A sensor reading fits 16 bits. -/
def readingOk : Reading → Bool
  | none => true
  | some n => decide (n < 65536)

/-- A register access is 4 or 8 bytes wide and carries as many (R178). -/
def accessOk : HostAccess → Bool
  | .write _ width value => (width == 4 || width == 8) && decide (value < 2 ^ (8 * width))
  | .read _ width => width == 4 || width == 8
  | .bar2Size _ => true
  | .msi _ _ _ => true
  | .config _ => true

/-- The symbols in error of a block of four codewords are numbered below 2,176, each once (R251). -/
def LinkRx.wf (x : LinkRx) : Bool := x.fec.all fun b => b.all (fun s => decide (s < 2176)) && decide b.Nodup

/-- An acceptance test measures each of the five receive lanes over some symbols (R254). -/
def testOk (measured : Nat) (errs : List Nat) : Bool := decide (1 ≤ measured) && errs.length == 5

/-- A trim measures the 16 steps (R352, R353). -/
def trimOk : Option (List (List Nat)) → Bool
  | none => true
  | some l => !l.isEmpty && decide (l.length ≤ 32) && l.all fun row => row.length == 16

/-- A window counts 48 events in each of at most 32 clusters, 4 partitions' granules in 12 stacks, and the cells of 4
partitions and of transit in 20 ports (R336, R338). -/
def countsOk (n : Counts) : Bool :=
  decide (n.clusters.length ≤ 32) && n.clusters.all (fun l => decide (l.length ≤ 48)) && decide (n.granules.length ≤ 12)
    && n.granules.all (fun l => decide (l.length ≤ 4)) && decide (n.cells.length ≤ 20) && n.cells.all fun l => decide (l.length ≤ 5)

/-- A stage's result names slots and clusters of the die (R13, R385). -/
def stageOk : StageResult → Bool
  | .s5 slots clusters => (slots.all fun x => decide (x.1 < 32) && decide (x.2 < 36)) && clusters.all fun c => decide (c < 32)
  | .s0 | .s1 _ | .s2 _ | .s3 _ _ | .s4 _ _ _ | .s6 | .s7 _ _ | .s8 | .s9 => true

/-- A command that the hardware can produce. -/
def Instr.wf : Instr → Bool
  | .nop .. | .add .. | .sub .. | .and .. | .or .. | .xor .. | .shl .. | .shr .. | .sar .. | .mul .. | .mulhu .. | .slt ..
  | .sltu .. | .addi .. | .andi .. | .ori .. | .shli .. | .lui .. | .ld .. | .st .. | .beq .. | .bne .. | .blt ..
  | .bltu .. | .jal .. | .jr .. | .mdload .. | .mma .. | .matrixOperationComplete .. | .waitm .. | .vadd .. | .vsub ..
  | .vmul .. | .vfma .. | .vmin .. | .vmax .. | .vabs .. | .vneg .. | .vrcp .. | .vrsq .. | .vexp2 .. | .vlog2 ..
  | .vrsum .. | .vbcast .. | .vmov .. | .vcvt .. | .vxadd .. | .vld .. | .vst .. | .qpush .. | .qpop .. | .qcount ..
  | .put .. | .radd .. | .dmaq .. | .fence .. | .bar .. | .rampWaveEnable .. | .clusterQuiet .. | .issueLevelArrival ..
  | .waitt .. | .csrr .. | .csrw .. | .endContext .. | .trap .. | .coreFaultReport .. | .coreHalt .. => true
  | .sramScrub _ cluMem unit line _ => scrubOk cluMem unit line
  | .granuleRead _ _ _ errs => errsOk errs
  | .granuleWrite r errs => r.wf && errsOk errs
  | .stackRadd r errs => r.wf && r.space == 0 && errsOk errs
  | .localRadd r _ => r.wf && r.space != 0
  | .pageCopyComplete .. | .historyExpiry .. => true
  | .sweepPage _ _ page => decide (page < 15790320)
  | .genAdvanceDeferred .. => true
  | .patrolRead _ granule errs => decide (granule < 252645120) && errsOk errs
  | .mcTempRead _ reading => readingOk reading
  | .fullFillEnd .. => true
  | .queueWordArrival p _ => p.wf
  | .qinEnable .. | .qoutBind .. | .qinFlush .. | .qinReset .. | .hqHeadWrite .. | .hqTailAdvance ..
  | .dmaDescriptorComplete .. | .dmaRequestTimeout .. | .dmaEngineStopped .. | .resume .. | .cancel ..
  | .irqPendingClear .. | .dmaCancelEnd .. | .pciePortReset .. => true
  | .bar2Read _ _ len => decide (1 ≤ len)
  | .bar2Write _ _ bytes _ => !bytes.isEmpty
  | .registerWrite _ a => accessOk a
  | .mbPost _ mb => mb.wf
  | .mbFree _ mb => mb.wf
  | .mailboxScan .. => true
  | .nopCommand mb => mb.wf
  | .query mb => mb.wf
  | .streamStart mb => mb.wf
  | .streamAbort mb => mb.wf
  | .stratumRegister mb => mb.wf
  | .stratumDrop mb => mb.wf
  | .dmaResume mb => mb.wf
  | .dmaIrqBind mb => mb.wf
  | .journalRead mb => mb.wf
  | .partReset mb => mb.wf
  | .dumpRelease mb => mb.wf
  | .energyRead mb => mb.wf
  | .layoutSet mb => mb.wf
  | .partAssign mb => mb.wf
  | .chipOwnerSet mb => mb.wf
  | .chipReset mb => mb.wf
  | .powerCycle mb => mb.wf
  | .fwActivate mb => mb.wf
  | .licenceInstall mb _ => mb.wf
  | .evtHeadWrite .. | .streamBegin .. => true
  | .operationComplete _ op => decide (op < 2 ^ 32)
  | .launch _ op => decide (op < 2 ^ 32)
  | .dmaOperation _ op => decide (op < 2 ^ 32)
  | .queueSetup _ op => decide (op < 2 ^ 32)
  | .streamFence _ op => decide (op < 2 ^ 32)
  | .barrier _ op => decide (op < 2 ^ 32)
  | .barrierTimeout _ op => decide (op < 2 ^ 32)
  | .collectiveStart _ op => decide (op < 2 ^ 32)
  | .hintHeavy _ op => decide (op < 2 ^ 32)
  | .hintExpiry .. => true
  | .stratumLoad _ op => decide (op < 2 ^ 32)
  | .stratumSwitch _ op => decide (op < 2 ^ 32)
  | .switchRestoreDone .. => true
  | .energyCheckpoint _ op => decide (op < 2 ^ 32)
  | .packetForward .. => true
  | .write p => p.wf
  | .raddRequest p => p.wf
  | .read p => p.wf
  | .mwrite _ p => p.wf
  | .wack p => p.wf
  | .rdata p => p.wf
  | .refuse p => p.wf
  | .grant p => p.wf
  | .credit p => p.wf
  | .qack p => p.wf
  | .qword p => p.wf
  | .hopCredit _ p => p.wf
  | .hopCreditTimer .. => true
  | .handover _ p => p.wf
  | .grantReq p => p.wf
  | .notice p => p.wf
  | .barrierArrival p => p.wf
  | .probe p => p.wf
  | .probeStart .. | .probeTimeout .. | .replySlotExpiry .. | .rateLimitIncrease .. | .rateLimiterFree .. | .histSample ..
  | .flip .. | .settle .. => true
  | .idle _ rx => rx.wf
  | .nak _ rx => rx.wf
  | .replayTimeout .. | .ackTimer .. => true
  | .cellReceive _ rx => rx.wf
  | .ident _ rx => rx.wf
  | .identSend .. | .portTrain .. => true
  | .acceptanceTest _ measured errs _ => testOk measured errs
  | .trainingFallback .. | .portRetrainTimer .. | .laneFailing .. => true
  | .laneSwap _ rx _ => rx.wf
  | .swapAck _ rx => rx.wf
  | .laneSwapSwitch .. | .swapTimeout .. => true
  | .down _ rx => rx.wf
  | .portFail .. | .reportWaitExpiry .. | .handoverEnd .. | .rackRefLoss .. | .rackRefReturn .. | .pllRefSwitch ..
  | .bedrockTrim .. | .rackSync .. | .ps1Entry .. | .ps2Entry .. | .ps3Entry .. | .ps4Entry .. | .wake .. => true
  | .stageEnd r => stageOk r
  | .s3Retry .. | .coldStart .. | .pwrGood .. | .railLoss .. | .railLossRestart .. | .bedrockLoss .. | .pkgResetN ..
  | .flashGnt .. | .flashGrantTimeout .. => true
  | .powerEstimatePass counts => countsOk counts
  | .calibrationPass .. | .capUnreachable .. | .slowLoop .. | .vfStep .. | .vrComplete .. | .vrTimeout ..
  | .droopDetect .. | .droopStretchEnd .. | .trimStart .. => true
  | .trimEnd measured => trimOk measured
  | .junctionSensorRead .. | .sensorFaulty .. | .thermalPass .. | .stackBwPass .. | .coolantEmergency ..
  | .headroomPass .. | .pwrBrake .. | .coolAlert .. | .coolAlertRelease .. => true
  | .thermalTrip _ a b c => readingOk a && readingOk b && readingOk c
  | .electricalTrip .. | .thermalCycleSample .. | .cycleCountSave .. | .powerStall .. | .contextWatchdog ..
  | .engineWatchdog .. | .partitionPoll .. | .partitionWatchdog .. | .escalationOverrun .. => true
  | .contextAbortEnd _ _ tiles => decide (tiles.length ≤ 4)
  | .dump .. | .debugReadTimeout .. | .dumpBudgetExpiry .. | .dumpEnd .. | .meshDrainDone .. | .cpWdPet ..
  | .cpWatchdog .. | .cpUncorrected .. | .cpbSelfTest .. | .cpaSelfTest .. | .handback .. | .bedrockSramError ..
  | .heartbeat .. | .heartbeatMiss .. | .counterSave .. | .telemetryFetch .. | .coordSet .. | .capSet .. | .trayCap ..
  | .coolant .. | .rails .. | .powerConfig .. | .timeSet .. | .ownerSet .. | .stateSet .. | .reset .. | .routeWrite ..
  | .fabricConfig .. | .portSet .. | .standIn .. | .retrain .. | .probeMessage .. | .imageBegin .. | .imageData ..
  | .imageEnd .. | .activate .. | .licence .. | .lifecycle .. | .keySet .. | .defectEdit .. | .debugUnlock ..
  | .spdmRequest .. | .jtagInstruction .. | .trialTick .. | .imageConfirm .. | .dmaRequestIssue .. => true
  | .inboundMeshAccess r => r.wf
  | .pcieLinkUp .. | .coolantTimeout .. | .guardBandRise .. | .tripCoreEnRelease .. | .mgmtEthernetLink ..
  | .i3cDynamicAddress .. => true

end Sys2Proof
end

