-- ==== Sys2Proof/Safety.lean ====
section
/-! DEFINITION. The terms that statements use: when a core takes an instruction, what may differ between two states, the invariants
of the machine. -/

namespace Sys2Proof.Machine

/-- The canonical form of a byte memory. -/
def Memory.wf (m : Mem) : Bool := Mem.wf m

/-- A core takes an instruction: it issues, its partition runs, and the hardware found no error in the word or a register (R76,
R102, R103, R203). -/
abbrev State.takes (s : State) (i : Issue) : Prop :=
  (s.core i.part i.core).canIssue = true ∧ s.partLive i.part = true ∧ i.hw = .none

/-- The instruction after the program counter lies within the segment (R77). -/
abbrev State.follows (s : State) (i : Issue) : Prop :=
  ((s.core i.part i.core).pc + 4).toNat < (s.core i.part i.core).segLen

/-- A target that R77 admits: a multiple of 4 within the segment. -/
abbrev State.targetOk (s : State) (i : Issue) (target : Word) : Prop :=
  target.toNat % 4 = 0 ∧ target.toNat < (s.core i.part i.core).segLen

/-- Two states differ in nothing but one core. -/
def OnlyCore (s t : State) (p : PartNo) (k : Fin 1024) : Prop :=
  t = { s with cores := t.cores } ∧ ∀ q j, (q, j) ≠ (p, k) → t.core q j = s.core q j

/-- A core that has retired one more instruction and goes on at `pc`. -/
def Core.wentTo (c : Core) (pc : Word) : Core := { c with pc := pc, progress := c.progress + 1 }

/-- A command answers a next state in which only one core differs, and that core is `c`. -/
def LeavesCore (i : Issue) (instr : Instr) (s : State) (c : Core) : Prop :=
  ∃ t, exec instr s = .next t ∧ OnlyCore s t i.part i.core ∧ t.core i.part i.core = c

/-- A command answers a next state that has a property. -/
def Completes (instr : Instr) (s : State) (P : State → Prop) : Prop := ∃ t, exec instr s = .next t ∧ P t

/-- A packet of a class and type stands at a local interface in its turn, for a partition that runs (R290, R295). -/
abbrev State.delivers (s : State) (p : Pkt) (cls type : Nat) : Prop :=
  p.cls.toNat = cls ∧ p.type.toNat = type ∧ s.mayDeliver p = true ∧ s.partLive (pktPart p) = true

/-- The state without a packet that its unit has taken. -/
def State.taking (s : State) (p : Pkt) : State := { s with fab := { s.fab with deliver := s.fab.deliver.erase p } }

/-- A packet is on its way: waiting to enter the fabric, or at a local interface of the package. -/
abbrev State.carries (s : State) (p : Pkt) : Prop := p ∈ s.fab.inject ∨ p ∈ s.fab.deliver

/-- The journal entry of a sequence number is open: accepted or started, and not final (R201). -/
abbrev State.entryOpen (s : State) (seq : BitVec 48) : Prop := (s.jentry seq).reusable = false ∧ (s.jentry seq).seq = seq

/-- The command in a mailbox has ended: response, DONE, and its journal entry, if open, final (R191, R194, R201). -/
def State.completed (s t : State) (mb : MbId) (code : Code) (detail : Nat) : Prop :=
  let m := s.mailbox mb
  (t.mailbox mb).status.state = 3 ∧ (t.mailbox mb).resp = response code (m.arg 4 0 32) m.seq detail
    ∧ (s.entryOpen m.seq → (t.jentry m.seq).result = code ∧ (t.jentry m.seq).tEnded = s.time
      ∧ (t.jentry m.seq).state = (if isSuccess code then 3 else if code = 0x0705 then 5 else 4))

/-- Operation `i` of the running stream is the first eligible one, and firmware may start it (R221, R243). -/
abbrev State.opReady (s : State) (p : PartNo) (i : Nat) (x : Stream) (w : BitVec 512) : Prop :=
  (s.part p).stream = some x ∧ x.ops[i]? = some w ∧ s.fwLive = true ∧ s.partLive p = true ∧ (s.part p).strmStatus.state = 2
    ∧ x.ending = none ∧ s.eligible p x i = true ∧ ∀ j, j < i → s.eligible p x j = false

/-- A message reaches the port, obeys R438's form, names this package, suits the life-cycle state and passes check 5; its body is long
enough. -/
abbrev State.admits (s : State) (h : MgmtHdr) (type : Nat) (need : Need) : Prop :=
  s.hears h = true ∧ h.formOk = true ∧ h.destTag = s.fuses.serialTag ∧ lifeOk s.fuses.lifecycle type h.key = true
    ∧ s.keyOk h type need = true ∧ h.bodyOk = true

/-- A partition's stream satisfies a property. -/
def State.streamHas (s : State) (p : PartNo) (P : Stream → Prop) : Prop := ∃ x, (s.part p).stream = some x ∧ P x

/-- The core of an issue. -/
def State.coreOf (s : State) (i : Issue) : Core := s.core i.part i.core

/-- A core that has recorded its first fault; nothing else of it differs (R103, R104). -/
def Core.stopped (c : Core) (cause : BitVec 8) (code : Code) (addr : Word) : Core :=
  { c with faulted := true, faultOrder := c.progress, fault := { cause := cause, code := code }, faultPc := c.pc, faultAddr := addr }

/-- A core that has recorded its first fault, with MULTI where a further cause arose in the same instruction (R104). -/
def Core.stoppedWith (c : Core) (multi : Bool) (cause : BitVec 8) (code : Code) (addr : Word) : Core :=
  { c with faulted := true, faultOrder := c.progress, fault := { cause := cause, code := code, multi := multi }, faultPc := c.pc,
           faultAddr := addr }

/-- The security version counter is at least `n` (R454). -/
abbrev State.svnAtLeast (n : Nat) (s : State) : Prop := n ≤ s.fuses.svn.toNat

/-- The byte memories of the package stand in their canonical form. -/
abbrev State.canonical (s : State) : Prop := Memory.wf s.sram = true ∧ Memory.wf s.hbm.data = true

end Sys2Proof.Machine
end

