-- ==== Sys2Proof/Certificates/Slice0/Obligations.lean ====
section
/-! DEFINITION. The statements about the model, for the provers. -/

open Sys2Proof Sys2Proof.Machine

/-! ## Cores: scalar instructions -/

/-- R82: what each ALU function writes, that it completes with no fault and touches nothing but g[d] and the program counter, which
function value names which function, and that every other value is reserved. -/
def Obligations.AluFunctionsWriteTheirResult : Prop :=
  (∀ (i : Issue) (d a b : Reg) (s : State), s.takes i → s.follows i →
    let c := s.coreOf i
    let x := c.gr a
    let y := c.gr b
    let n := y.toNat % 64
    let gives (instr : Instr) (z : Word) : Prop := LeavesCore i instr s ((c.setGr d z).wentTo (c.pc + 4))
    gives (.add i d a b) (x + y) ∧ gives (.sub i d a b) (x - y) ∧ gives (.and i d a b) (x &&& y) ∧ gives (.or i d a b) (x ||| y)
      ∧ gives (.xor i d a b) (x ^^^ y) ∧ gives (.shl i d a b) (x <<< n) ∧ gives (.shr i d a b) (x >>> n)
      ∧ gives (.sar i d a b) (x.sshiftRight n) ∧ gives (.mul i d a b) (BitVec.ofNat 64 (x.toNat * y.toNat))
      ∧ gives (.mulhu i d a b) (BitVec.ofNat 64 (x.toNat * y.toNat / 2 ^ 64))
      ∧ gives (.slt i d a b) (if x.toInt < y.toInt then 1 else 0) ∧ gives (.sltu i d a b) (if x.toNat < y.toNat then 1 else 0))
  ∧ (∀ (i : Issue) (w : BitVec 32), opcodeField w = 1 →
    let d := regOf (dField w)
    let a := regOf (aField w)
    let b := regOf (bField w)
    decodeCoreWord i w = ([Instr.add i d a b, .sub i d a b, .and i d a b, .or i d a b, .xor i d a b, .shl i d a b, .shr i d a b,
      .sar i d a b, .mul i d a b, .mulhu i d a b, .slt i d a b, .sltu i d a b])[(funField w).toNat]?)

/-- R81: the immediate forms, LUI and NOP; SHLI and NOP with their RSVD bits zero. -/
def Obligations.ImmediateFormsWriteTheirResult : Prop :=
  ∀ (i : Issue) (d a : Reg) (imm : BitVec 16) (s : State), s.takes i → s.follows i →
    let c := s.coreOf i
    let gives (instr : Instr) (z : Word) : Prop := LeavesCore i instr s ((c.setGr d z).wentTo (c.pc + 4))
    gives (.addi i d a imm) (c.gr a + imm.signExtend 64) ∧ gives (.andi i d a imm) (c.gr a &&& imm.setWidth 64)
      ∧ gives (.ori i d a imm) (c.gr a ||| imm.setWidth 64) ∧ gives (.lui i d imm) (imm.signExtend 64 <<< 16)
      ∧ (imm.toNat < 64 → gives (.shli i d a imm) (c.gr a <<< imm.toNat))
      ∧ LeavesCore i (.nop i 0) s (c.wentTo (c.pc + 4))

/-- R77: g0 reads as zero and ignores writes; a write to another general register changes it and no other. -/
def Obligations.RegisterZeroReadsZeroAndIgnoresWrites : Prop :=
  ∀ (c : Core) (d r : Reg) (x : Word),
    c.gr 0 = 0 ∧ c.setGr 0 x = c ∧ (d ≠ 0 → (c.setGr d x).gr d = x) ∧ (r ≠ d → (c.setGr d x).gr r = c.gr r)
      ∧ c.setGr d x = { c with g := (c.setGr d x).g }

/-- R81: a branch that is taken goes on at PC + 4 × sext(imm16), another at PC + 4; JAL and JR write the link and jump. Where R77
does not allow the target the address fault is recorded and nothing else of the core changes. -/
def Obligations.BranchesAndJumpsGoOnAtTheirTarget : Prop :=
  ∀ (i : Issue) (d a b : Reg) (imm : BitVec 16) (offset : BitVec 21) (s : State), s.takes i →
    let c := s.coreOf i
    let x := c.gr a
    let y := c.gr b
    let target := c.pc + 4 * imm.signExtend 64
    let branch (instr : Instr) (taken : Prop) : Prop :=
      (taken → s.targetOk i target → LeavesCore i instr s (c.wentTo target))
        ∧ (taken → ¬ s.targetOk i target → LeavesCore i instr s (c.stopped 3 0x0207 target))
        ∧ (¬ taken → s.follows i → LeavesCore i instr s (c.wentTo (c.pc + 4)))
    let jump (instr : Instr) (t : Word) : Prop :=
      (s.targetOk i t → LeavesCore i instr s ((c.setGr d (c.pc + 4)).wentTo t))
        ∧ (¬ s.targetOk i t → LeavesCore i instr s (c.stopped 3 0x0207 t))
    branch (.beq i a b imm) (x = y) ∧ branch (.bne i a b imm) (x ≠ y) ∧ branch (.blt i a b imm) (x.toInt < y.toInt)
      ∧ branch (.bltu i a b imm) (x.toNat < y.toNat) ∧ jump (.jal i d offset) (c.pc + 4 * offset.signExtend 64)
      ∧ jump (.jr i d a 0) (c.gr a)

/-- R81, R105: LD and VLD bring the addressed bytes, MDLOAD fills its slot, when the address is aligned and lies in its space, no
earlier matrix operation holds the bytes back and no line is poisoned; no memory changes. -/
def Obligations.LoadsBringTheAddressedBytes : Prop :=
  ∀ (i : Issue) (d a : Reg) (slot : Fin 8) (imm : BitVec 16) (s : State) (key : Nat), s.takes i → s.follows i →
    let c := s.coreOf i
    let w := c.gr a + imm.signExtend 64
    let reads (n al : Nat) : Prop := w.toNat % al = 0 ∧ s.localAt i.part i.core w.toNat n = some key
      ∧ c.mmHolds w.toNat n false = false ∧ s.sramPoisoned key n = false
    (reads 8 8 → LeavesCore i (.ld i d a imm) s
        ((c.setGr d (BitVec.ofNat 64 (natOfBytes (Mem.read s.sram key 8)))).wentTo (c.pc + 4)))
      ∧ (reads 256 64 → LeavesCore i (.vld i d a imm) s
        ((c.setVr d (BitVec.ofNat 2048 (natOfBytes (Mem.read s.sram key 256))) false).wentTo (c.pc + 4)))
      ∧ (reads 128 128 → LeavesCore i (.mdload i slot 0 a imm) s
        (({ c with slots := c.slots.set slot (BitVec.ofNat 1024 (natOfBytes (Mem.read s.sram key 128))) } : Core).wentTo (c.pc + 4)))

/-- R81: ST and VST store their register's bytes at the address their operands give, and change no other byte; the core goes on. A
VST of an unpoisoned register is meant. -/
def Obligations.StoresWriteOnlyTheAddressedBytes : Prop :=
  ∀ (i : Issue) (d a : Reg) (imm : BitVec 16) (s : State) (key : Nat), s.takes i → s.follows i →
    let c := s.coreOf i
    let w := c.gr a + imm.signExtend 64
    let writes (n al : Nat) : Prop := w.toNat % al = 0 ∧ s.localAt i.part i.core w.toNat n = some key
      ∧ c.mmHolds w.toNat n true = false
    let stores (instr : Instr) (bs : List Byte) : Prop :=
      ∃ t, exec instr s = .next t ∧ t = { s with cores := t.cores, sram := t.sram, sramPoison := t.sramPoison }
        ∧ t.coreOf i = c.wentTo (c.pc + 4) ∧ (∀ q j, (q, j) ≠ (i.part, i.core) → t.core q j = s.core q j)
        ∧ Mem.read t.sram key bs.length = bs
        ∧ ∀ x, (x < key ∨ key + bs.length ≤ x) → Mem.get t.sram x = Mem.get s.sram x
    (writes 8 8 → stores (.st i d a imm) (bytesOfNat 8 (c.gr d).toNat))
      ∧ (writes 256 64 → c.vpoison d = false → stores (.vst i d a imm) (bytesOfNat 256 (c.vr d).toNat))

/-- R79, R81: LD, ST, VLD, VST and MDLOAD at an address that is misaligned or outside its space raise the address fault, with that
address recorded, and have no other effect. -/
def Obligations.BadCoreLocalAddressRaisesAddressFault : Prop :=
  ∀ (i : Issue) (d a : Reg) (slot : Fin 8) (imm : BitVec 16) (s : State), s.takes i →
    let c := s.coreOf i
    let w := c.gr a + imm.signExtend 64
    let bad (n al : Nat) : Prop := w.toNat % al ≠ 0 ∨ s.localAt i.part i.core w.toNat n = none
    let faults (instr : Instr) : Prop := LeavesCore i instr s (c.stopped 3 0x0207 w)
    (bad 8 8 → faults (.ld i d a imm) ∧ faults (.st i d a imm)) ∧ (bad 256 64 → faults (.vld i d a imm) ∧ faults (.vst i d a imm))
      ∧ (bad 128 128 → faults (.mdload i slot 0 a imm))

/-- R80: a nonzero RSVD field raises the encoding fault, and so does a word that its hardware check refuses (R102); nothing else
of the core changes. -/
def Obligations.ReservedBitsRaiseEncodingFault : Prop :=
  (∀ (i : Issue) (d a : Reg) (q : Fin 8) (n : Fin 4) (slot : Fin 8) (ch : Fin 16) (fin : Bool) (imm : BitVec 16) (s : State),
    s.takes i →
    let c := s.coreOf i
    let faults (instr : Instr) : Prop := LeavesCore i instr s (c.stopped 1 0x0110 0)
    (∀ r, r ≠ 0 → faults (.nop i r) ∧ faults (.endContext i r)) ∧ (64 ≤ imm.toNat → faults (.shli i d a imm))
      ∧ (∀ r, r ≠ 0 → faults (.jr i d a r)) ∧ (∀ r, r ≠ 0 → faults (.mdload i slot r a imm)) ∧ (∀ r, r ≠ 0 → faults (.mma i slot r))
      ∧ (∀ r, r ≠ 0 → faults (.waitm i r imm) ∧ faults (.waitt i r imm) ∧ faults (.fence i r imm) ∧ faults (.trap i r imm))
      ∧ (∀ r, r ≠ 0 → faults (.vbcast i d a r)) ∧ (∀ r, r ≠ 0 → faults (.qpush i d q n fin r)) ∧ (∀ r, r ≠ 0 → faults (.qpop i d q n r))
      ∧ (∀ r, r ≠ 0 → faults (.qcount i d q r)) ∧ faults (.dmaq i ch true a imm) ∧ (∀ r, r ≠ 0 → faults (.csrr i d r imm))
      ∧ (∀ r, r ≠ 0 → faults (.csrw i r a imm)))
  ∧ (∀ (i : Issue) (d a b : Reg) (s : State), (s.coreOf i).canIssue = true → s.partLive i.part = true → i.hw = .encoding →
    LeavesCore i (.add i d a b) s ((s.coreOf i).stopped 1 0x0110 0))

/-- R76, R101, R203: a core that does not issue, or whose partition does not run, takes no instruction: nothing changes (log 1). -/
def Obligations.IdleCoreTakesNoInstruction : Prop :=
  ∀ (c : Instr) (i : Issue) (s : State), c.issueOf = some i →
    ((s.coreOf i).canIssue = false ∨ s.partLive i.part = false) → exec c s = .next s
/-! ## Cores: the vector unit -/

/-- R83, R89: the lane-wise operations write every lane of vd from the same lanes of their sources, with unpoisoned sources; they
set the flags that some lane raises, and leave every other register as it was. -/
def Obligations.LaneOperationsWriteEveryLane : Prop :=
  ∀ (i : Issue) (vd va vb vc : Reg) (s : State), s.takes i → s.follows i →
    let c := s.coreOf i
    c.vpoison va = false → c.vpoison vb = false → c.vpoison vc = false →
    let a (n : Nat) := lane (c.vr va) n
    let b (n : Nat) := lane (c.vr vb) n
    let writes (instr : Instr) (f : Nat → BitVec 32 × FpFlags) : Prop :=
      ∃ t, exec instr s = .next t ∧ OnlyCore s t i.part i.core
        ∧ (∀ n, n < 64 → lane ((t.coreOf i).vr vd) n = (f n).1) ∧ (t.coreOf i).vpoison vd = false
        ∧ (∀ r, r ≠ vd → (t.coreOf i).vr r = c.vr r ∧ (t.coreOf i).vpoison r = c.vpoison r)
        ∧ (t.coreOf i).vec.vInvalid = (c.vec.vInvalid || (List.range 64).any fun n => (f n).2.invalid)
        ∧ (t.coreOf i).vec.vDivzero = (c.vec.vDivzero || (List.range 64).any fun n => (f n).2.divzero)
        ∧ (t.coreOf i).vec.vOverflow = (c.vec.vOverflow || (List.range 64).any fun n => (f n).2.overflow)
        ∧ (t.coreOf i).vec.vUnderflow = (c.vec.vUnderflow || (List.range 64).any fun n => (f n).2.underflow)
        ∧ (t.coreOf i).vec.vInexact = (c.vec.vInexact || (List.range 64).any fun n => (f n).2.inexact)
        ∧ t.coreOf i = { c.wentTo (c.pc + 4) with v := (t.coreOf i).v, vp := (t.coreOf i).vp, vec := (t.coreOf i).vec }
    writes (.vadd i vd va vb) (fun n => fp32Add (a n) (b n)) ∧ writes (.vsub i vd va vb) (fun n => fp32Sub (a n) (b n))
      ∧ writes (.vmul i vd va vb) (fun n => fp32Mul (a n) (b n))
      ∧ writes (.vfma i vd va vb vc) (fun n => fp32Fma (a n) (b n) (lane (c.vr vc) n))
      ∧ writes (.vmin i vd va vb) (fun n => fp32Pick false (a n) (b n)) ∧ writes (.vmax i vd va vb) (fun n => fp32Pick true (a n) (b n))
      ∧ writes (.vabs i vd va) (fun n => fp32Abs (a n)) ∧ writes (.vneg i vd va) (fun n => fp32Neg (a n))
      ∧ writes (.vrcp i vd va) (fun n => fp32Rcp (a n)) ∧ writes (.vrsq i vd va) (fun n => fp32Rsq (a n))
      ∧ writes (.vexp2 i vd va) (fun n => fp32Exp2 (a n)) ∧ writes (.vlog2 i vd va) (fun n => fp32Log2 (a n))

/-- R83, R89 to R91: VRSUM's tree, VBCAST, VMOV with its poison bit, VCVT with a control word that R90 admits, VXADD's twelve sums;
each writes vd and the vector flags alone. -/
def Obligations.WholeRegisterVectorOperations : Prop :=
  ∀ (i : Issue) (vd va vb vc : Reg) (s : State), s.takes i → s.follows i →
    let c := s.coreOf i
    let w := (c.gr vb).toNat
    let src := fmtOf (bitsAt w 0 4)
    let dst := fmtOf (bitsAt w 4 4)
    let elem (n : Nat) := cvtElem src dst ((Rnd.ofCode (bitsAt w 8 2)
      (srBits c.seed ((c.gr vb).extractLsb' 32 32) (BitVec.ofNat 64 (((c.gr vc).toNat + n) % 2 ^ 48)))).getD .rne)
      ((c.gr vb).getLsbD 10) (packedElem (c.vr va).toNat src.bits n)
    let sums (k : Nat) := Xf.add (bitsAt (c.vr va).toNat (xfPlace k) 160) (bitsAt (c.vr vb).toNat (xfPlace k) 160)
    let writes (instr : Instr) (x : Block) (vec : CoreVecStatus) (poison : Bool) : Prop :=
      LeavesCore i instr s ((({ c with vec := vec } : Core).setVr vd x poison).wentTo (c.pc + 4))
    let tree := sumTree ((List.range 64).map (lane (c.vr va)))
    (c.vpoison va = false → writes (.vrsum i vd va) ((tree.1.headD 0).setWidth 2048) (c.vec.raise tree.2) false)
      ∧ writes (.vbcast i vd va 0) (ofLanes fun _ => (c.gr va).setWidth 32) c.vec false
      ∧ writes (.vmov i vd va) (c.vr va) c.vec (c.vpoison va)
      ∧ (c.vpoison va = false → bitsAt w 0 4 ≤ 9 → bitsAt w 4 4 ≤ 9 → bitsAt w 8 2 ≠ 3 → bitsAt w 11 21 = 0 →
          writes (.vcvt i vd va vb vc) (BitVec.ofNat 2048 (packElems dst.bits ((List.range 64).map fun n => (elem n).1)))
            (c.vec.raise (((List.range 64).map elem).foldl (fun f r => f.or r.2) {})) false)
      ∧ (c.vpoison va = false → c.vpoison vb = false → ∃ t, exec (.vxadd i vd va vb) s = .next t ∧ OnlyCore s t i.part i.core
          ∧ (t.coreOf i).vpoison vd = false ∧ (∀ r, r ≠ vd → (t.coreOf i).vr r = c.vr r)
          ∧ (t.coreOf i).vr vd
              = BitVec.ofNat 2048 ((((List.range 12).map sums).zipIdx).foldl (fun x r => x + r.1.1.word * 2 ^ xfPlace r.2) 0)
          ∧ (t.coreOf i).vec.vOverflow = (c.vec.vOverflow || ((List.range 12).map sums).any fun r => r.2.sat)
          ∧ (t.coreOf i).vec.vInexact = (c.vec.vInexact || ((List.range 12).map sums).any fun r => r.2.inexact)
          ∧ (t.coreOf i).vec.vInvalid = (c.vec.vInvalid || ((List.range 12).map sums).any fun r => r.2.invalid)
          ∧ (t.coreOf i).arith = c.arith)

/-- R105: a vector instruction with a poisoned source register leaves its destination register poisoned, goes on, and changes no
other register's bytes or poison. -/
def Obligations.PoisonedSourcePoisonsDestination : Prop :=
  ∀ (i : Issue) (vd va vb vc : Reg) (s : State), s.takes i → s.follows i →
    let c := s.coreOf i
    c.vpoison va = true →
    let poisons (instr : Instr) : Prop :=
      ∃ t, exec instr s = .next t ∧ t = { s with cores := t.cores, freeCtr := t.freeCtr } ∧ (t.coreOf i).vpoison vd = true
        ∧ (∀ r, r ≠ vd → (t.coreOf i).vr r = c.vr r ∧ (t.coreOf i).vpoison r = c.vpoison r)
        ∧ (t.coreOf i).pc = c.pc + 4 ∧ (t.coreOf i).g = c.g ∧ (t.coreOf i).faulted = false
    poisons (.vadd i vd va vb) ∧ poisons (.vsub i vd va vb) ∧ poisons (.vmul i vd va vb) ∧ poisons (.vfma i vd va vb vc)
      ∧ poisons (.vmin i vd va vb) ∧ poisons (.vmax i vd va vb) ∧ poisons (.vabs i vd va) ∧ poisons (.vneg i vd va)
      ∧ poisons (.vrcp i vd va) ∧ poisons (.vrsq i vd va) ∧ poisons (.vexp2 i vd va) ∧ poisons (.vlog2 i vd va)
      ∧ poisons (.vrsum i vd va) ∧ poisons (.vmov i vd va) ∧ poisons (.vxadd i vd va vb)

/-! ## Cores: matrix operations, waiting, registers -/

/-- R51, R81, R84, R86, R96, R104: an MMA whose descriptor passes joins the outstanding operations with a copy of its slot and starts
the ramp of a quiet cluster; the ninth is held back; a bad descriptor faults and has no effect, with MULTI set where a range also leaves
its space. -/
def Obligations.MmaIssuesOrIsRefused : Prop :=
  ∀ (i : Issue) (slot : Fin 8) (s : State), s.takes i → s.follows i →
    let c := s.coreOf i
    let d := MmDesc.ofBits c.slots[slot]
    let cl := s.coreCluster i.part i.core
    let check := d.check (s.licence.granted.getLsbD 3)
    (c.mms.length < 8 → check = .ok → ∃ t, exec (.mma i slot 0) s = .next t
        ∧ t = { s with cores := t.cores, clus := t.clus }
        ∧ t.coreOf i = ({ c with mms := c.mms ++ [{ desc := c.slots[slot], pc := c.pc, order := c.progress }] } : Core).wentTo (c.pc + 4)
        ∧ (s.clus[cl].quiet = true → s.clus[cl].ramping = false →
            t.clus[cl] = { s.clus[cl] with ramping := true, waves := 0, quiet := false })
        ∧ (s.clus[cl].quiet = false → t.clus = s.clus))
      ∧ (8 ≤ c.mms.length → LeavesCore i (.mma i slot 0) s { c with state := 1, held := some (.mma i slot 0) })
      ∧ (c.mms.length < 8 → check = .operand → LeavesCore i (.mma i slot 0) s (c.stoppedWith d.addressBad 2 0x0111 0))
      ∧ (c.mms.length < 8 → check = .notLicensed → LeavesCore i (.mma i slot 0) s (c.stoppedWith d.addressBad 2 0x0105 0))
      ∧ (c.mms.length < 8 → check = .address → LeavesCore i (.mma i slot 0) s (c.stopped 3 0x0207 (BitVec.ofNat 64 d.badAddr)))

/-- R73, R74, R84, R87, R88, R97, R105, R106: the oldest matrix operation of a core whose engines are enabled writes back and completes, then
what was held back goes on. It leaves the later operations in their order, adds its flags, writes the rows of D and no other byte, and
changes no unit but its core and SRAM; a flag that it set and whose trap bit is 1 raises the arithmetic fault at its own place; with a
poisoned source it consumes poison and every line of D is poisoned. -/
def Obligations.OldestMatrixOperationCompletes : Prop :=
  ∀ (p : PartNo) (k : Fin 1024) (op : MmOp) (rest : List MmOp) (pr : Pairing) (s : State),
    let c := s.core p k
    let d := MmDesc.ofBits op.desc
    let rows := (List.range d.m).map (s.mmRow p k c.seed d pr)
    let fl := (rows.map (·.2)).flatten
    let reads (r : Region) : Bool := s.regionPoisoned p k r
    let poison := reads d.regA || reads d.regB || (d.cEn && reads d.regC)
      || (pr.block != 0 && (reads (d.regSa pr.block) || reads (d.regSb pr.block)))
    let traps := ({ c with arith := CoreArithStatus.raise {} fl } : Core).arithTraps
    let ready : Prop := c.mms = op :: rest ∧ c.aborting = false ∧ c.lost = false ∧ s.partLive p = true ∧ s.coreEnabled p k = true
      ∧ pairingOf d.aFmt d.bFmt = some pr
    let kept (u : State) : Prop := u = { s with cores := u.cores, sram := u.sram, sramPoison := u.sramPoison, freeCtr := u.freeCtr }
      ∧ (∀ q j, (q, j) ≠ (p, k) → u.core q j = s.core q j) ∧ (u.core p k).mms = rest ∧ (u.core p k).arith = c.arith.raise fl
      ∧ (u.core p k).g = c.g ∧ (u.core p k).v = c.v ∧ (u.core p k).vp = c.vp ∧ (u.core p k).slots = c.slots ∧ (u.core p k).pc = c.pc
      ∧ (u.core p k).ctx = c.ctx ∧ (u.core p k).carry = c.carry
    let piece (i : Nat) (q : Nat × Nat) (key : Nat) : Prop := i < d.m ∧ q ∈ d.dPieces ∧ s.localAt p k (d.dAddr + i * d.dLd + q.1) q.2 = some key
    let inD (x : Nat) : Prop := ∃ i q key, piece i q key ∧ key ≤ x ∧ x < key + q.2
    let inLine (l : Nat) : Prop := ∃ i q key, piece i q key ∧ l ∈ linesOf key q.2
    let wrote (u : State) : Prop := u.sram = ((rows.zipIdx).foldl (fun s r => s.putRow p k d false r.2 r.1.1) s).sram
      ∧ (∀ x, ¬ inD x → Mem.get u.sram x = Mem.get s.sram x) ∧ ∀ l, ¬ inLine l → (l ∈ u.sramPoison ↔ l ∈ s.sramPoison)
    (ready → poison = false → traps = false → Completes (.matrixOperationComplete p k) s fun t => ∃ u : State, t = u.retry ∧ kept u
        ∧ wrote u ∧ u.core p k = { c with mms := rest, arith := c.arith.raise fl })
      ∧ (ready → poison = false → traps = true → c.faulted = false → c.state ≠ 5 → Completes (.matrixOperationComplete p k) s fun t =>
          ∃ u : State, t = u.retry ∧ kept u ∧ wrote u ∧ (u.core p k).faulted = true
            ∧ (u.core p k).fault = { cause := 6, code := 0x0112 } ∧ (u.core p k).faultPc = op.pc ∧ (u.core p k).faultOrder = op.order)
      ∧ (ready → poison = true → Completes (.matrixOperationComplete p k) s fun t => ∃ u : State, t = u.retry ∧ kept u
          ∧ (u.core p k).poison.consumed = true ∧ (u.core p k).poison.emitted = true
          ∧ (∀ l, inLine l → l ∈ u.sramPoison)
          ∧ (∀ x, ¬ inLine (x / 64) → Mem.get u.sram x = Mem.get s.sram x) ∧ (∀ l, ¬ inLine l → (l ∈ u.sramPoison ↔ l ∈ s.sramPoison))
          ∧ (c.ctrl.poisonTrap = true → c.poison.consumed = false → c.faulted = false → c.state ≠ 5 → (u.core p k).faulted = true
            ∧ (u.core p k).fault.cause = 5 ∧ (u.core p k).fault.code = 0x0201 ∧ (u.core p k).faultPc = op.pc))

/-- R81, R95, R151, R223: WAITM, WAITT and FENCE go on once what they wait for has come about, wait otherwise with the STATE of R101,
and an operand out of range faults; BAR arrives at its barrier once its own matrix operations have ended. -/
def Obligations.WaitsGoOnOrWait : Prop :=
  ∀ (i : Issue) (imm : BitVec 16) (s : State), s.takes i → s.follows i →
    let c := s.coreOf i
    let on (instr : Instr) : Prop := LeavesCore i instr s (c.wentTo (c.pc + 4))
    let waits (instr : Instr) (st : BitVec 3) : Prop := LeavesCore i instr s { c with state := st, held := some instr }
    let operand (instr : Instr) : Prop := LeavesCore i instr s (c.stopped 2 0x0111 0)
    let m := imm.toNat % 16
    (m ≤ 8 → c.mms.length ≤ m → on (.waitm i 0 imm)) ∧ (m ≤ 8 → m < c.mms.length → waits (.waitm i 0 imm) 3)
      ∧ (8 < m → operand (.waitm i 0 imm))
      ∧ (imm.toNat < 1024 → (s.token i.part imm.toNat).isComplete = true → on (.waitt i 0 imm))
      ∧ (imm.toNat < 1024 → (s.token i.part imm.toNat).isComplete = false → waits (.waitt i 0 imm) 3)
      ∧ (c.mms = [] → on (.fence i 0 0)) ∧ (c.mms ≠ [] → waits (.fence i 0 0) 1)
      ∧ (s.acksDone i.part i.core = true → on (.fence i 0 1)) ∧ (s.acksDone i.part i.core = false → waits (.fence i 0 1) 1)
      ∧ (c.mms = [] → s.acksDone i.part i.core = true → on (.fence i 0 2))
      ∧ (2 < imm.toNat → operand (.fence i 0 imm)) ∧ (1 < imm.toNat → operand (.bar i 0 imm))
      ∧ (imm.toNat ≤ 1 → c.mms = [] →
          (∀ x, c.ctx = some x → ∃ j, j ≠ i.core ∧ j ∈ s.takingPart i.part x.op ∧ j.val / 32 = i.core.val / 32
            ∧ (s.core i.part j).bar = .none) →
          LeavesCore i (.bar i 0 imm) s { c with state := 2, bar := .arrived (imm == 1) })

/-- R73, R100, R101: CSRR brings the register of the table "Core block" at imm16 × 8; CSRW writes the three registers that it may
write, one whose bits are cleared by ones among them; any other offset is an operand fault. CORE_PC reads as the next instruction's offset (log 16). -/
def Obligations.CoreRegistersReadAndWrite : Prop :=
  ∀ (i : Issue) (d a : Reg) (imm : BitVec 16) (s : State), s.takes i → s.follows i →
    let c := s.coreOf i
    let w : BitVec 32 := (c.gr a).setWidth 32
    let reads (n : BitVec 16) (x : Word) : Prop := LeavesCore i (.csrr i d 0 n) s ((c.setGr d x).wentTo (c.pc + 4))
    reads 0 ((s.coreId i.part i.core).word.setWidth 64) ∧ reads 2 ((c.status (!c.mms.isEmpty && !s.coreEnabled i.part i.core)).word.setWidth 64)
      ∧ reads 3 (c.pc + 4) ∧ reads 12 ((s.coreIssue i.part i.core).word.setWidth 64)
      ∧ reads 1 (c.ctrl.word.setWidth 64) ∧ reads 4 c.progress ∧ reads 5 (c.fault.word.setWidth 64) ∧ reads 6 c.faultPc
      ∧ reads 7 c.faultAddr ∧ reads 8 (c.arith.word.setWidth 64) ∧ reads 9 (c.arithCtrl.word.setWidth 64)
      ∧ reads 10 (c.vec.word.setWidth 64) ∧ reads 11 c.seed ∧ reads 13 (c.poison.word.setWidth 64)
      ∧ (14 ≤ imm.toNat → LeavesCore i (.csrr i d 0 imm) s (c.stopped 2 0x0111 0))
      ∧ LeavesCore i (.csrw i 0 a 10) s (({ c with vec := c.vec.clear w } : Core).wentTo (c.pc + 4))
      ∧ (({ c with arith := c.arith.clear w } : Core).arithTraps = false →
          LeavesCore i (.csrw i 0 a 8) s (({ c with arith := c.arith.clear w } : Core).wentTo (c.pc + 4)))
      ∧ (({ c with arithCtrl := CoreArithCtrl.ofWord w } : Core).arithTraps = false →
          LeavesCore i (.csrw i 0 a 9) s (({ c with arithCtrl := CoreArithCtrl.ofWord w } : Core).wentTo (c.pc + 4)))
      ∧ (imm ≠ 8 → imm ≠ 9 → imm ≠ 10 → LeavesCore i (.csrw i 0 a imm) s (c.stopped 2 0x0111 0))

/-- R76, R81, R102, R231: TRAP raises the software fault with its code; END, once the context's work has completed, ends the context,
leaves the core idle and keeps its carry set, g0 and g31 of it zero; then launches that waited start. -/
def Obligations.TrapAndEndStopTheContext : Prop :=
  ∀ (i : Issue) (imm : BitVec 16) (s : State), s.takes i →
    let c := s.coreOf i
    LeavesCore i (.trap i 0 imm) s (c.stopped 7 0x0113 (BitVec.ofNat 64 (imm.toNat % 256)))
      ∧ ∀ x, c.ctx = some x → x.lane = false → c.mms = [] → s.acksDone i.part i.core = true → c.poison.consumed = false →
        ∃ u : State, exec (.endContext i 0) s = .next (u.launchReady i.part) ∧ OnlyCore s u i.part i.core
          ∧ u.coreOf i = { c with ctx := none, state := 0, held := none, bar := .none, carry := (c.g.set 0 0).set 31 0 }

/-! ## Cores: queues, PUT, RADD, DMAQ -/

/-- R94, R105, R111, R147, R150, R153: QPUSH faults on a binding that is not VALID or broken, waits in STATE 3 for credits, and else sends
its words with their tags in one packet, takes their credits and advances NEXT_SLOT modulo W. The packet goes to the inbound side itself
within the partition, to a local interface for another partition of the package, and into the fabric for another package; poisoned words
go on poisoned. -/
def Obligations.QpushSendsWaitsOrFaults : Prop :=
  ∀ (i : Issue) (va : Reg) (q : Fin 8) (n : Fin 4) (fin : Bool) (s : State), s.takes i → s.follows i →
    let c := s.coreOf i
    let b := s.qout i.part i.core q
    let m := n.val + 1
    let words : List QWord := (List.range m).map fun j =>
      { data := (c.vr va).extractLsb' (512 * j) 512, parity := parityOf ((c.vr va).extractLsb' (512 * j) 512),
        fin := fin && j + 1 == m, poison := c.vpoison va }
    let pkt := wordsPkt s i.part i.core q b words
    let after := s.writesTo i.part i.core b.dst
    (b.valid = false → LeavesCore i (.qpush i va q n fin 0) s (c.stopped 8 0x0121 0))
      ∧ (b.valid = true → b.st.broken = true → LeavesCore i (.qpush i va q n fin 0) s (c.stopped 8 b.breakReason 0))
      ∧ (b.valid = true → b.st.broken = false → b.st.credits.toNat < m →
          LeavesCore i (.qpush i va q n fin 0) s { c with state := 3, held := some (.qpush i va q n fin 0) })
      ∧ (b.valid = true → b.st.broken = false → m ≤ b.st.credits.toNat → Completes (.qpush i va q n fin 0) s fun t =>
          t = { s with cores := t.cores, qouts := t.qouts, words := t.words, wordAfter := t.wordAfter, fab := t.fab }
          ∧ t.coreOf i = (if c.vpoison va = true then c.emit else c).wentTo (c.pc + 4)
          ∧ (∀ p j, (p, j) ≠ (i.part, i.core) → t.core p j = s.core p j)
          ∧ (t.qout i.part i.core q).st.credits.toNat = b.st.credits.toNat - m
          ∧ (t.qout i.part i.core q).unacked = b.unacked + m
          ∧ (0 < b.st.capacity.toNat →
              (t.qout i.part i.core q).st.nextSlot.toNat = (b.st.nextSlot.toNat + m) % b.st.capacity.toNat)
          ∧ t.wordAfter = s.wordAfter ++ (if after = [] then [] else [(pkt, after)])
          ∧ (s.device = some b.dst.device → b.dst.part = BitVec.ofNat 2 i.part.val → t.words = s.words ++ [(pkt, List.range m)] ∧ t.fab = s.fab)
          ∧ (s.device = some b.dst.device → b.dst.part ≠ BitVec.ofNat 2 i.part.val → t.words = s.words
              ∧ t.fab = { s.fab with deliver := s.fab.deliver ++ [pkt] })
          ∧ (s.device ≠ some b.dst.device → t.words = s.words ∧ t.fab = { s.fab with inject := s.fab.inject ++ [pkt] }))

/-- R154: QPOP faults on a side that is disabled, in host mode or flushed, waits in STATE 3 for its words, and else moves the head
words into v[d], zeros the rest and advances the head; a poisoned word poisons v[d]. No other core changes and no other side; of a side
that keeps at most 32 words, none in its scree, by a context that is no lane, nothing but the core, the side and a credit changes. -/
def Obligations.QpopTakesWaitsOrFaults : Prop :=
  ∀ (i : Issue) (d : Reg) (q : Fin 8) (n : Fin 4) (s : State), s.takes i → s.follows i →
    let c := s.coreOf i
    let x := s.qin i.part i.core q
    let m := n.val + 1
    let instr := Instr.qpop i d q n 0
    let moved (t : State) : Prop := (t.qin i.part i.core q).st.head.toNat = (x.st.head.toNat + m) % x.st.capacity.toNat
      ∧ (∀ p k q', (p, k, q') ≠ (i.part, i.core, q) → t.qin p k q' = s.qin p k q')
      ∧ ∀ p j, (p, j) ≠ (i.part, i.core) → t.core p j = s.core p j
    let near : Prop := x.inScree = [] ∧ x.words.length ≤ 32
    let noLane : Prop := ∀ y, c.ctx = some y → y.lane = false
    (x.cfg.enable = false ∨ x.cfg.host = true → LeavesCore i instr s (c.stopped 8 0x0121 0))
      ∧ (x.cfg.enable = true → x.cfg.host = false → x.st.flushed = true → LeavesCore i instr s (c.stopped 8 x.st.reason 0))
      ∧ (x.cfg.enable = true → x.cfg.host = false → x.st.flushed = false → x.waiting.length < m →
          LeavesCore i instr s { c with state := 3, held := some instr })
      ∧ (x.cfg.enable = true → x.cfg.host = false → x.st.flushed = false → m ≤ x.waiting.length →
          (∀ z, z ∈ x.waiting.take m → z.poison = false ∧ parityOf z.data = z.parity) → 0 < x.st.capacity.toNat →
          Completes instr s fun t => moved t
            ∧ t.coreOf i = (c.setVr d (BitVec.ofNat 2048 (packElems 512 ((x.waiting.take m).map fun z => z.data.toNat))) false).wentTo
                (c.pc + 4)
            ∧ (near → noLane → t = { s with cores := t.cores, qins := t.qins, fab := t.fab }))
      ∧ (x.cfg.enable = true → x.cfg.host = false → x.st.flushed = false → m ≤ x.waiting.length →
          (∃ z ∈ x.waiting.take m, z.poison = true ∨ parityOf z.data ≠ z.parity) → 0 < x.st.capacity.toNat →
          Completes instr s fun t => moved t ∧ (t.coreOf i).vpoison d = true ∧ (t.coreOf i).pc = c.pc + 4
            ∧ (near → t = { s with cores := t.cores, qins := t.qins, fab := t.fab, freeCtr := t.freeCtr }))

/-- R155: QCOUNT brings the packet counter of its queue, zero for a disabled side and the flush bit for a flushed one, and never
faults. -/
def Obligations.QcountReadsThePacketCounter : Prop :=
  ∀ (i : Issue) (d : Reg) (q : Fin 8) (s : State), s.takes i → s.follows i →
    let c := s.coreOf i
    let x := s.qin i.part i.core q
    LeavesCore i (.qcount i d q 0) s ((c.setGr d x.counter).wentTo (c.pc + 4))
      ∧ (x.cfg.enable = false → x.counter = 0)
      ∧ (x.cfg.enable = true → x.st.flushed = true → x.counter = BitVec.ofNat 64 (2 ^ 63))

/-- R79, R81, R104, R108 to R111, R118, R294, R303, R326: a PUT or RADD within the partition puts its granule requests on the mesh and
completes at issue; one to another package or partition takes its reply slots and sends one request a packet, to the first target of an
armed multicast for a PUT that R326 turns into MWRITE; it waits while its slots are not free. A count of 0 and a malformed operand
fault. -/
def Obligations.PutAndRaddCompleteAtIssue : Prop :=
  ∀ (i : Issue) (a b : Reg) (count : BitVec 11) (s : State) (key : Nat), s.takes i → s.follows i →
    let c := s.coreOf i
    let len := count.toNat * 64
    let op := AddrOp.ofWord (c.gr b)
    let cuts := packetCuts (len / 448 + 2) op.byte len
    let source : Prop := count ≠ 0 ∧ s.localAt i.part i.core (c.gr a).toNat len = some key ∧ op.formOk = true
      ∧ c.mmHolds (c.gr a).toNat len false = false
    let gone := (if s.sramPoisoned key len = true then c.emit else c).wentTo (c.pc + 4)
    let inside : Prop := source ∧ s.isLocal i.part op = true ∧ s.extentOk i.part op.space op.unit op.byte len = true
    let outside (radd : Bool) : Prop := source ∧ s.isLocal i.part op = false ∧ op.offset + len ≤ 2 ^ 40
      ∧ s.replyFits i.part (BitVec.ofNat 16 i.core.val) (s.putSlots i.part i.core op radd) cuts.length = true
    let wrote (radd : Bool) (t : State) : Prop := t.coreOf i = gone ∧ t = { s with cores := t.cores, mesh := t.mesh }
      ∧ (∀ p j, (p, j) ≠ (i.part, i.core) → t.core p j = s.core p j)
      ∧ t.mesh = s.mesh ++ (pieces op.space op.byte len).map fun x =>
          { src := .core i.part i.core, part := i.part, space := op.space, unit := op.unit, addr := x.1, radd := radd,
            bytes := Mem.read s.sram (key + (x.1 - op.byte)) x.2, poison := s.sramPoisoned (key + (x.1 - op.byte)) x.2,
            ack := .put c.pc (c.gr b) c.progress }
    let sent (radd : Bool) (t : State) : Prop := t.coreOf i = gone ∧ t = { s with cores := t.cores, reply := t.reply, fab := t.fab }
      ∧ (∀ p j, (p, j) ≠ (i.part, i.core) → t.core p j = s.core p j)
      ∧ ∃ ps : List Pkt, ps.length = cuts.length ∧
        let goesTo (dest : DeviceNo) : Prop := (s.device ≠ some dest → t.fab = { s.fab with inject := s.fab.inject ++ ps })
          ∧ (s.device = some dest → t.fab = { s.fab with deliver := s.fab.deliver ++ ps })
        ((if radd then none else s.mcastSlot i.part i.core op) = none → goesTo op.device ∧ ∀ y ∈ ps.zip cuts, ∃ reply,
            y.1 = reqPkt s i.part op.device op.part (if radd then 1 else 0) op.space (op.offset - op.byte + y.2.1) y.2.2 reply []
              (dataCells y.2.1 y.2.2 (s.putSource key op.byte)))
        ∧ (∀ m, s.mcastSlot i.part i.core op = some m → radd = false → goesTo m.device ∧ ∀ y ∈ ps.zip cuts, ∃ reply,
            y.1 = reqPkt s i.part m.device m.part 3 op.space (op.offset - op.byte + y.2.1) y.2.2 reply
              [(16, 0, 8, m.mask.toNat), (16, 8, 1, m.axis.toNat)] (dataCells y.2.1 y.2.2 (s.putSource key op.byte)))
    (inside → Completes (.put i a b count) s (wrote false))
      ∧ (inside → op.offset % 4 = 0 → Completes (.radd i a b count) s (wrote true))
      ∧ (outside false → Completes (.put i a b count) s (sent false))
      ∧ (outside true → op.offset % 4 = 0 → Completes (.radd i a b count) s (sent true))
      ∧ (source → s.isLocal i.part op = false → op.offset + len ≤ 2 ^ 40 →
          s.replyFits i.part (BitVec.ofNat 16 i.core.val) (s.putSlots i.part i.core op false) cuts.length = false →
          LeavesCore i (.put i a b count) s { c with state := 1, held := some (.put i a b count) })
      ∧ (source → s.isLocal i.part op = false → op.offset + len ≤ 2 ^ 40 → op.offset % 4 = 0 →
          s.replyFits i.part (BitVec.ofNat 16 i.core.val) (s.putSlots i.part i.core op true) cuts.length = false →
          LeavesCore i (.radd i a b count) s { c with state := 1, held := some (.radd i a b count) })
      ∧ (count = 0 → LeavesCore i (.put i a b count) s (c.stoppedWith (s.putAddrBad i c a b len false) 2 0x0111 0)
          ∧ LeavesCore i (.radd i a b count) s (c.stoppedWith (s.putAddrBad i c a b len true) 2 0x0111 0))
      ∧ (count ≠ 0 → s.localAt i.part i.core (c.gr a).toNat len = some key → op.formOk = false →
          LeavesCore i (.put i a b count) s (c.stopped 3 0x0207 (c.gr b)) ∧ LeavesCore i (.radd i a b count) s (c.stopped 3 0x0207 (c.gr b)))
      ∧ (count ≠ 0 → s.localAt i.part i.core (c.gr a).toNat len = none →
          LeavesCore i (.put i a b count) s (c.stopped 3 0x0207 (c.gr a)) ∧ LeavesCore i (.radd i a b count) s (c.stopped 3 0x0207 (c.gr a)))

/-- R81, R165, R167: DMAQ posts a descriptor that passes to a channel with room, waits in STATE 3 while the channel holds eight, and
faults on a descriptor that does not pass. -/
def Obligations.DmaqPostsItsDescriptor : Prop :=
  ∀ (i : Issue) (ch : Fin 16) (a : Reg) (imm : BitVec 16) (s : State) (key : Nat), s.takes i → s.follows i →
    let c := s.coreOf i
    let addr := c.gr a + imm.signExtend 64
    let w : BitVec 512 := BitVec.ofNat 512 (natOfBytes (Mem.read s.sram key 64))
    let cl := s.coreCluster i.part i.core
    let x := s.chan cl ch
    let instr := Instr.dmaq i ch false a imm
    addr.toNat % 64 = 0 → s.localAt i.part i.core addr.toNat 64 = some key → c.mmHolds addr.toNat 64 false = false →
    s.sramPoisoned key 64 = false →
    (s.dmaCheck i.part (DmaDesc.ofBits w) = .ok → x.descs.length < 8 → ∃ t, exec instr s = .next t
        ∧ t.coreOf i = c.wentTo (c.pc + 4) ∧ t = { s with cores := t.cores, dma := t.dma }
        ∧ (t.chan cl ch).descs = x.descs ++ [{ desc := w, poster := BitVec.ofNat 10 i.core.val, op := c.ctx.map fun y => y.op }])
      ∧ (s.dmaCheck i.part (DmaDesc.ofBits w) = .ok → 8 ≤ x.descs.length →
          LeavesCore i instr s { c with state := 3, held := some instr })
      ∧ (s.dmaCheck i.part (DmaDesc.ofBits w) = .operand → LeavesCore i instr s (c.stopped 2 0x0111 0))
/-! ## Clusters, cores and their memory as events -/

/-- R96 to R98: the next wave of a ramping cluster enables its engines and lets the released cores of the wave go on, the eighth ends
the ramp; a cluster without matrix operations becomes quiet; a level takes effect. Every other cluster is as before. -/
def Obligations.RampWavesQuietAndIssueLevels : Prop :=
  ∀ (cl : Fin 32) (w : Fin 8) (s : State),
    let u := s.clus[cl]
    (u.ramping = true → u.waves = BitVec.ofNat 8 (2 ^ w.val - 1) → Completes (.rampWaveEnable cl w) s fun t =>
        t = { s with clus := t.clus, cores := t.cores } ∧ (∀ j : Fin 32, j ≠ cl → t.clus[j] = s.clus[j])
          ∧ t.clus[cl] = { u with waves := BitVec.ofNat 8 (2 ^ (w.val + 1) - 1), ramping := decide (w ≠ 7) }
          ∧ ∀ (p : PartNo) (l j : Nat), s.clusterPart cl = some (p, l) → j < 4 →
              (s.core p (toFin 1024 (32 * l + 4 * w.val + j))).bar = .released → t.coreEnabled p (toFin 1024 (32 * l + 4 * w.val + j)) = true →
              (t.core p (toFin 1024 (32 * l + 4 * w.val + j))).bar = .none)
      ∧ (u.ramping = false → (∀ p l j, s.clusterPart cl = some (p, l) → j < 32 → (s.core p (toFin 1024 (32 * l + j))).mms = []) →
          Completes (.clusterQuiet cl) s fun t => t = { s with clus := s.clus.set cl { u with quiet := true } })
      ∧ Completes (.issueLevelArrival cl) s fun t => t = { s with clus := s.clus.set cl { u with level := s.power.clu[cl].level } }

/-- R101, R103, R410: HALT stops a core, which reads halted, and its removal lets it show and do again what it did; a faulted core
whose work has completed reports, reads faulted and is the latest escalation; an aborted core's block is reset but for its fault
registers, and the abort is counted. -/
def Obligations.HaltFaultReportAndAbortEnd : Prop :=
  ∀ (p : PartNo) (k : Fin 1024) (tiles : List Nat) (s : State),
    let c := s.core p k
    (s.fwLive = true → s.partLive p = true → c.aborting = false →
        (Completes (.coreHalt p k true) s fun t => OnlyCore s t p k
          ∧ t.core p k = { c with ctrl := { c.ctrl with halt := true }, state := if c.state = 5 then 5 else 4 })
        ∧ Completes (.coreHalt p k false) s fun t => ∃ u : State, t = u.retry.passReleased p [k] ∧ OnlyCore s u p k
          ∧ u.core p k = { c with ctrl := { c.ctrl with halt := false }, state := if c.state = 4 then c.running else c.state })
      ∧ (c.faulted = true → c.state ≠ 5 → c.aborting = false → c.mms = [] → s.acksDone p k = true →
          Completes (.coreFaultReport p k) s fun t => t.rcv.status.lastCode = c.endCode ∧ t.rcv.status.lastLevel = 1
            ∧ t.rcv.status.lastCore = BitVec.ofNat 10 k.val
            ∧ ((s.part p).stream = none → (t.core p k) = { c with state := 5 })
            ∧ (∀ x, (s.part p).stream = some x → x.ending = none → s.fwLive = false → t.core p k = { c with state := 5 }
                ∧ (t.part p).stream = some { x with failDue := some (x.failDue.getD c.endCode) }))
      ∧ (c.aborting = true → c.lost = false → c.mms = [] → (s.part p).reset = none →
          Completes (.contextAbortEnd p k tiles) s fun t => ∃ u : State, t = (u.settleEnd p).launchReady p
            ∧ u.core p k = c.abortReset ∧ (u.part p).rcv.aborts = satInc (s.part p).rcv.aborts
            ∧ (∀ q j, (q, j) ≠ (p, k) → u.core q j = s.core q j) ∧ u = { s with cores := u.cores, parts := u.parts })

/-- R124 to R126: a read of a granule whose codeword has no error changes nothing unless its owner differs; an owner mismatch is
logged in the controller and reported; an uncorrectable codeword leaves the granule zero and poisoned, counted and noted. -/
def Obligations.GranuleReadsCorrectOrPoison : Prop :=
  ∀ (src : MeshSrc) (p : PartNo) (a : Addr40) (errs : SymErrs) (key : Nat) (s : State), s.granuleAt p a.toNat = some key →
    let st := keyStack key
    (s.viewKey p key ≠ .mismatch → Completes (.granuleRead src p a []) s fun t => t = s)
      ∧ (s.viewKey p key = .mismatch → Completes (.granuleRead .cp p a []) s fun t =>
          t = { s with hbm := t.hbm, host := t.host, mgmt := t.mgmt } ∧ t.hbm.data = s.hbm.data ∧ t.hbm.metas = s.hbm.metas
            ∧ t.hbm.mcs[st].errLog.kind = 4 ∧ t.hbm.mcs[st].errLog.owner = (s.metaAt key).owner)
      ∧ (rsDecode errs = none → Completes (.granuleRead src p a errs) s fun t =>
          Mem.read t.hbm.data (256 * key) 256 = zeros 256
            ∧ (t.metaAt key).poison = true ∧ (t.metaAt key).poisonSrc = 1 ∧ (t.metaAt key).owner = BitVec.ofNat 2 p.val
            ∧ t.hbm.mcs[st].errCount.ue = satInc s.hbm.mcs[st].errCount.ue
            ∧ (t.part p).poisonLog.valid = true ∧ (t.part p).poisonLog.address = BitVec.ofNat 40 (a.toNat / 256 * 256)
            ∧ (t.part p).poisonLog.src = 1 ∧ t.cores = s.cores ∧ t.sram = s.sram
            ∧ ∀ b, b < 256 * key ∨ 256 * key + 256 ≤ b → Mem.get t.hbm.data b = Mem.get s.hbm.data b)
      ∧ (s.viewKey p key ≠ .mismatch → ∀ e, Completes (.granuleRead src p a [e]) s fun t =>
          t.hbm.data = s.hbm.data ∧ t.hbm.metas = s.hbm.metas ∧ t.hbm.mcs[st].errCount.ce = satInc s.hbm.mcs[st].errCount.ce)

/-- R125, R127, R133, R141: the patrol's progress, the end of a page copy, the expiry of a history entry, the reading of a stack's
temperature with the hysteresis of doubled refresh; each changes that stack's controller alone. -/
def Obligations.ControllerEventsKeepTheirRegisters : Prop :=
  ∀ (m : Fin 12) (g : Nat) (r : Nat) (s : State),
    let x := s.hbm.mcs[m]
    let only (t : State) : Prop := t = { s with hbm := { s.hbm with mcs := t.hbm.mcs } }
      ∧ ∀ j : Fin 12, j ≠ m → t.hbm.mcs[j] = s.hbm.mcs[j]
    (g < stackPages0 * 16 → Completes (.patrolRead m g []) s fun t => only t
        ∧ t.hbm.mcs[m].patrol.progress = BitVec.ofNat 7 (128 * g / (stackPages0 * 16))
        ∧ t.hbm.mcs[m].patrol.passes = if g + 1 = stackPages0 * 16 then x.patrol.passes + 1 else x.patrol.passes)
      ∧ (∀ pg rest, x.copying = pg :: rest → Completes (.pageCopyComplete m) s fun t => only t
          ∧ pg ∈ t.hbm.mcs[m].retired ∧ t.hbm.mcs[m].copying = rest
          ∧ t.hbm.mcs[m].status.remapBusy = !rest.isEmpty)
      ∧ (Completes (.historyExpiry m) s fun t => only t ∧ t.hbm.mcs[m] = { x with history := x.history.drop 1 })
      ∧ (Completes (.mcTempRead m none) s fun t => only t ∧ t.hbm.mcs[m].temp.valid = false ∧ t.hbm.mcs[m].status.refresh2x = true)
      ∧ (r < 1024 → Completes (.mcTempRead m (some r)) s fun t => only t
          ∧ t.hbm.mcs[m].temp.temp.toNat = r ∧ t.hbm.mcs[m].temp.valid = true
          ∧ (340 ≤ r → t.hbm.mcs[m].status.refresh2x = true) ∧ (r < 332 → t.hbm.mcs[m].status.refresh2x = false)
          ∧ (332 ≤ r → r < 340 → t.hbm.mcs[m].status.refresh2x = x.status.refresh2x))

/-- R27, R118 to R120, R123, R126: a request at the head of its order is performed at its place and leaves the mesh: a full write
stores its 256 bytes with the partition's metadata, a partial one merges, a RADD adds; a request to local memory changes its bytes
alone. A write to a granule of another owner and a request to a unit outside the partition of its tag are discarded and reported. No
sweep runs; `w` is what was written. -/
def Obligations.RequestsArePerformedAtTheirPlace : Prop :=
  ∀ (r : MeshReq) (s : State) (st pg : Nat), s.mayPerform r = true → r.ack = .none →
    let key := granuleKey st pg (r.addr / 256 % 16)
    let a := s.spaceAt r.part r.space r.unit r.addr
    let n := r.bytes.length
    let off := r.addr % 256
    let stores (instr : Instr) (w : List Byte) (at_ : Nat) : Prop := Completes instr s fun t => ∃ u : State, t = u.retry
      ∧ u = { s with mesh := s.mesh.erase r, hbm := { s.hbm with data := u.hbm.data, metas := u.hbm.metas } }
      ∧ Mem.read u.hbm.data at_ w.length = w ∧ (∀ b, b < at_ ∨ at_ + w.length ≤ b → Mem.get u.hbm.data b = Mem.get s.hbm.data b)
      ∧ u.viewKey r.part key = .data key
    let local_ (instr : Instr) (w : List Byte) : Prop := Completes instr s fun t => ∃ u : State, t = u.retry
      ∧ u = { s with mesh := s.mesh.erase r, sram := u.sram, sramPoison := u.sramPoison }
      ∧ Mem.read u.sram a n = w ∧ ∀ b, b < a ∨ a + n ≤ b → Mem.get u.sram b = Mem.get s.sram b
    (r.space = 0 → r.poison = false → s.placement.locate r.part.val (r.addr / 4096) = some (st, pg) →
        (s.part r.part).sweep = none → (s.part r.part).dumpSweep = none →
        (r.radd = false → n = 256 → off = 0 → s.viewKey r.part key ≠ .mismatch → stores (.granuleWrite r []) r.bytes (256 * key))
        ∧ (r.radd = false → s.viewKey r.part key = .mismatch → Completes (.granuleWrite r []) s fun t => ∃ u : State, t = u.retry
            ∧ u = { s with mesh := s.mesh.erase r, hbm := { s.hbm with mcs := u.hbm.mcs }, host := u.host, mgmt := u.mgmt }
            ∧ u.hbm.mcs[keyStack key].errLog.kind = 4 ∧ u.hbm.mcs[keyStack key].errLog.owner = (s.metaAt key).owner)
        ∧ (r.radd = false → off + n ≤ 256 → s.viewKey r.part key = .data key →
            stores (.granuleWrite r []) r.bytes (256 * key + off))
        ∧ (r.radd = true → n % 4 = 0 → off + n ≤ 256 → s.viewKey r.part key = .data key →
            stores (.stackRadd r []) (raddBytes (Mem.read s.hbm.data (256 * key + off) n) r.bytes) (256 * key + off)))
      ∧ (r.space ≠ 0 → s.unitOk r = true → r.radd = true → n % 4 = 0 → r.poison = false →
          local_ (.localRadd r []) (raddBytes (Mem.read s.sram a n) r.bytes))
      ∧ (r.space ≠ 0 → s.unitOk r = true → r.radd = false → r.poison = false → local_ (.inboundMeshAccess r) r.bytes)
      ∧ (r.space ≠ 0 → s.unitOk r = false →
          let discarded (instr : Instr) : Prop := Completes instr s fun t => ∃ u : State, t = u.retry
            ∧ u = { s with mesh := s.mesh.erase r, host := u.host, mgmt := u.mgmt }
          (r.radd = true → discarded (.localRadd r [])) ∧ (r.radd = false → discarded (.inboundMeshAccess r)))

/-- R131, R132, R135, R137 to R139: a swept page is zero and carries the generation; a generation that waited advances to the next value
not in LIVE; a stack's full fill writes zeros everywhere in it; a scrub counts a corrected line, poisons an uncorrectable one and counts it, and a lost vote inverts the poison bit. Wrong bits
within 16 adjacent stored bits of a line meet each word at most once and are corrected, within 32 at most twice and are detected. -/
def Obligations.SweepsFillsAndScrubs : Prop :=
  ∀ (p : PartNo) (m : Fin 12) (page u : Nat) (done : List Nat) (v : BitVec 4) (cm : Bool) (unit line : Nat) (e : LineErrs)
    (s : State),
    (s.placement.owner m.val page = some (p.val, u) → dumpPages ≤ u → (s.part p).sweep = some done → sweepKey m.val page ∉ done →
        Completes (.sweepPage p m page) s fun t =>
          (∀ i, i < 16 → Table.get none t.hbm.metas (granuleKey m.val page i)
              = some { wipeGen := (s.part p).gen.gen, owner := BitVec.ofNat 2 p.val, keep := false })
          ∧ (∀ b, 256 * granuleKey m.val page 0 ≤ b → b < 256 * granuleKey m.val page 0 + 4096 → Mem.get t.hbm.data b = 0)
          ∧ t = { s with hbm := t.hbm, parts := t.parts }
          ∧ (s.sweepTotal p ≤ done.length + 1 → (t.part p).sweep = none ∧ (t.part p).gen.live = BitVec.ofNat 16 (2 ^ (s.part p).gen.gen.toNat))
          ∧ (done.length + 1 < s.sweepTotal p → (t.part p).sweep = some (insertNat (sweepKey m.val page) done)))
      ∧ ((s.part p).genWait = true → nextGen (s.part p).gen.gen (s.part p).gen.live = some v → s.draining p = false → s.mgmt.change = none →
          (s.part p).dumpGenWait = false → (s.boot.status.ready = true → s.fwLive = true) →
          Completes (.genAdvanceDeferred p) s fun t => (t.part p).gen.gen = v ∧ (t.part p).genWait = false ∧ (t.part p).sweep = some []
            ∧ t = { s with parts := t.parts, hbm := { s.hbm with mcs := t.hbm.mcs } })
      ∧ ((s.part p).dumpGenWait = true → (s.part p).dumpSweep = none → (s.part p).genWait = false → s.draining p = false →
          s.mgmt.change = none → (s.boot.status.ready = true → s.fwLive = true) →
          Completes (.genAdvanceDeferred p) s fun t => (t.part p).gen.dumpGen = (s.part p).gen.dumpGen + 1
            ∧ (t.part p).dumpGenWait = false ∧ (t.part p).dumpSweep = some []
            ∧ t = { s with parts := t.parts, hbm := { s.hbm with mcs := t.hbm.mcs } })
      ∧ (s.boot.needFill.getLsbD m.val = true → s.host.layoutMove = none → Completes (.fullFillEnd m) s fun t =>
          (∀ b, m.val * 2 ^ 36 ≤ b → b < (m.val + 1) * 2 ^ 36 → Mem.get t.hbm.data b = 0)
            ∧ t.boot.needFill.getLsbD m.val = false ∧ t.hbm.mcs[m].status.filled = true
            ∧ t = { s with hbm := t.hbm, boot := { s.boot with needFill := t.boot.needFill } })
      ∧ (s.partLive p = true → unit < (s.part p).clusters.length * (if cm then 1 else 32) → line < (if cm then 2 ^ 18 else 2 ^ 15) →
          let l := s.spaceAt p (if cm then 2 else 1) unit (64 * line) / 64
          (voteFlips e = false → lineOutcome e = .none → Completes (.sramScrub p cm unit line e) s fun t => t = s)
          ∧ (voteFlips e = false → lineOutcome e = .corrected → Completes (.sramScrub p cm unit line e) s fun t =>
              t = { s with parts := t.parts } ∧ (t.part p).sramCount.ce = satInc (s.part p).sramCount.ce)
          ∧ (lineOutcome e = .uncorrected → Completes (.sramScrub p cm unit line e) s fun t =>
              l ∈ t.sramPoison ∧ (t.part p).sramCount.ue = satInc (s.part p).sramCount.ue)
          ∧ (voteFlips e = true → lineOutcome e = .none → Completes (.sramScrub p cm unit line e) s fun t =>
              (l ∈ t.sramPoison ↔ l ∉ s.sramPoison) ∧ t = { s with sram := t.sram, sramPoison := t.sramPoison, freeCtr := t.freeCtr }))
      ∧ (∀ a n, (∀ x, x ∈ e → a ≤ x.val ∧ x.val < a + n) → a + n ≤ 624 → voteFlips e = false
          ∧ (n ≤ 16 → (∀ w, wordFlips e w ≤ 1) ∧ (e ≠ [] → lineOutcome e = .corrected))
          ∧ (n ≤ 32 → (∀ w, wordFlips e w ≤ 2) ∧ ((∃ w, w < 16 ∧ wordFlips e w = 2) → lineOutcome e = .uncorrected)))
/-! ## Stream queues -/

/-- R145, R146, R150, R154, R156 to R158, R160, R164: enabling a side with a good scree sets W and sends a grant, and sets up its
host-queue slot in host mode; a bad scree leaves it disabled with CFG_ERROR; a side that left host mode frees its slot; binding clears
the outbound side and asks for a grant; a flush empties and marks a side and breaks its peer's binding; a reset empties it without a
marker. -/
def Obligations.QueueSidesEnableBindFlushReset : Prop :=
  ∀ (p : PartNo) (k : Fin 1024) (q : Fin 8) (w src dst : Word) (vector : BitVec 8) (reason : Code) (s : State),
    let x := s.qin p k q
    let cfg := QinCfg.written w
    let pages := cfg.screePages.toNat
    let good : Prop := pages ≤ 16384 ∧ (cfg.host = true → pages ≠ 0)
      ∧ (pages ≠ 0 → s.rangeOk p (cfg.screeBase.toNat * 4096) (pages * 4096) = true)
    let was : Prop := x.cfg.enable = true ∧ x.cfg.host = true
    let slot (t : State) (y : QIn) : HostQ := (t.part p).hostQs[(toFin 16 y.cfg.hostSlot.toNat : Fin 16)]
    let enables (P : State → Prop) : Prop := Completes (.qinEnable p k q w src vector) s fun t =>
      P t ∧ t = { s with qins := t.qins, fab := t.fab, parts := t.parts } ∧ (t.qin p k q).words = x.words ∧ (t.qin p k q).st.head = x.st.head
    let granted (t : State) : Prop := (t.qin p k q).cfg = { cfg with cfgError := false } ∧ (t.qin p k q).src = QPeer.ofWord src
      ∧ (t.qin p k q).st.capacity = BitVec.ofNat 20 (screeWords cfg.host pages) ∧ t.carries (grantPkt s p (t.qin p k q))
    (cfg.enable = true → cfg.host = false → good → enables fun t => granted t ∧ (¬ was → t.parts = s.parts))
      ∧ (cfg.enable = true → cfg.host = true → good → enables fun t => granted t ∧ (slot t (t.qin p k q)).cfg.active = true
          ∧ (slot t (t.qin p k q)).cfg.core = BitVec.ofNat 10 k.val ∧ (slot t (t.qin p k q)).cfg.queue = BitVec.ofNat 3 q.val
          ∧ (slot t (t.qin p k q)).base = { screeBase := cfg.screeBase, screePages := cfg.screePages, vector := vector }
          ∧ (slot t (t.qin p k q)).tail.armed = true)
      ∧ (cfg.enable = true → ¬ good → enables fun t => (t.qin p k q).cfg.enable = false ∧ (t.qin p k q).cfg.cfgError = true
          ∧ t.fab = s.fab ∧ (¬ was → t.parts = s.parts))
      ∧ (cfg.enable = false → enables fun t => (t.qin p k q).cfg.enable = false ∧ (t.qin p k q).cfg.cfgError = false
          ∧ t.fab = s.fab ∧ (¬ was → t.parts = s.parts) ∧ (was → (slot t x).cfg = {} ∧ (slot t x).base = {}))
      ∧ (dst.getLsbD 29 = true → Completes (.qoutBind p k q dst) s fun t =>
          t.qout p k q = { dst := QPeer.ofWord dst, valid := true, heldGen := some (QPeer.ofWord dst).bindGen }
            ∧ (∃ n : Pkt, n.cls = 3 ∧ n.type = 2 ∧ n.dest = (QPeer.ofWord dst).device ∧ t.carries n)
            ∧ t = { s with qouts := t.qouts, fab := t.fab })
      ∧ (dst.getLsbD 29 = false → Completes (.qoutBind p k q dst) s fun t =>
          t.qout p k q = { s.qout p k q with dst := QPeer.ofWord dst, valid := false, heldGen := some (QPeer.ofWord dst).bindGen }
            ∧ t = { s with qouts := t.qouts })
      ∧ (x.cfg.enable = true → x.st.flushed = false → Completes (.qinFlush p k q reason) s fun t => ∃ u : State, t = u.retry
          ∧ (u.qin p k q).words = [] ∧ (u.qin p k q).st.flushed = true
          ∧ (u.qin p k q).st.reason = (if reason = 0 then 0x0120 else reason) ∧ (u.qin p k q).cfg = x.cfg
          ∧ u.carries (noticePkt s p x.src (if reason = 0 then 0x0120 else reason) false)
          ∧ (x.cfg.host = false → u = { s with qins := u.qins, fab := u.fab })
          ∧ (x.cfg.host = true → (slot u x).cfg.flushed = true ∧ (slot u x).tail.tail = (slot s x).head ∧ (slot u x).tail.full = false))
      ∧ (x.cfg.enable = true → Completes (.qinReset p k q) s fun t =>
          (t.qin p k q).words = [] ∧ (t.qin p k q).st.flushed = false ∧ (t.qin p k q).st.head = 0 ∧ (t.qin p k q).st.reason = 0
            ∧ t.carries (grantPkt s p (t.qin p k q)) ∧ t = { s with qins := t.qins, fab := t.fab, parts := t.parts }
            ∧ (x.cfg.host = false → t.parts = s.parts)
            ∧ (x.cfg.host = true → (slot t x).head = 0 ∧ (slot t x).tail.tail = 0 ∧ (slot t x).cfg.flushed = false))

/-- R145, R149 to R151, R157, R160: what the packets of queues do to the unit they name: words set out for the inbound side, and in
their turn are stored in their slots there, those of a host-mode side by requests to its scree, or discarded and counted when the
producer is not the bound one; grants set W, credits and the first slot;
returned credits and acknowledgements count; a grant request is answered; a notice breaks or flushes. -/
def Obligations.QueuePacketsReachTheirSides : Prop :=
  ∀ (p : Pkt) (i : Fin 4) (s : State),
    let pt := pktPart p
    let k := (pktQueue p).1
    let q := (pktQueue p).2
    let x := s.qin pt k q
    let b := s.qout pt k q
    let asker : QPeer :=
      { device := p.src, part := p.spart, core := BitVec.ofNat 10 (Pkt.field p 0 0 10), queue := BitVec.ofNat 3 (Pkt.field p 0 10 3),
        bindGen := BitVec.ofNat 8 (Pkt.field p 2 0 8) }
    let n := wordSlot x.st.capacity.toNat (Pkt.field p 0 0 20) i.val
    let turn (e : Pkt × List Nat) : Prop := s.words.find? (fun e => e.1 == p) = some e ∧ s.wordFirst e i.val = true ∧ s.partLive pt = true
    let taken : Prop := x.cfg.enable = true ∧ x.st.flushed = false ∧ wordsPeer p = x.src
    (s.delivers p 2 0 → s.wordHeld p = false → Completes (.qword p) s fun t =>
        t = { s.taking p with words := s.words ++ [(p, List.range p.data.length)], qins := t.qins }
          ∧ (p.mark = false → t.qins = s.qins) ∧ (p.mark = true → taken → t.qin pt k q = { x with echo := true }))
      ∧ (∀ e, turn e → taken → x.cfg.host = false → n ∉ x.inScree →
          Completes (.queueWordArrival p i) s fun t => ∃ u : State, t = u.retry
            ∧ Table.get none (u.qin pt k q).words n = some (pktWord p i.val)
            ∧ (e.2 = [i.val] → u.carries (qackPkt s pt x.src (Pkt.field p 0 0 20) p.data.length))
            ∧ (x.inScree = [] → x.words.length < 32 →
                u = { s with words := u.words, wordAfter := u.wordAfter, qins := u.qins, fab := u.fab }
                  ∧ ∀ n', n' ≠ n → Table.get none (u.qin pt k q).words n' = Table.get none x.words n'))
      ∧ (∀ e, turn e → taken → x.cfg.host = true → Completes (.queueWordArrival p i) s fun t => ∃ u : State, t = u.retry
          ∧ u = { s with words := u.words, wordAfter := u.wordAfter, qins := u.qins, mesh := u.mesh }
          ∧ Table.get none (u.qin pt k q).words n = some (pktWord p i.val) ∧ n ∈ (u.qin pt k q).storing
          ∧ u.mesh = s.mesh ++ screeReqs pt k q x.screeAt n (pktWord p i.val))
      ∧ (∀ e, turn e → x.cfg.enable = false ∨ (x.st.flushed = false ∧ wordsPeer p ≠ x.src) → Completes (.queueWordArrival p i) s fun t =>
          (t.qin pt k q).words = x.words ∧ (t.qin pt k q).st.discarded = satInc x.st.discarded
            ∧ t.carries (noticePkt s pt (wordsPeer p) 0x0123 false))
      ∧ (s.delivers p 1 3 → b.valid = true → b.st.granted = false → fromPeer p b.dst = true → Completes (.grant p) s fun t => ∃ u : State,
          t = u.retry ∧ u = { s.taking p with qouts := u.qouts } ∧ (u.qout pt k q).st.granted = true
            ∧ (u.qout pt k q).st.capacity = BitVec.ofNat 20 (Pkt.field p 0 0 20) ∧ (u.qout pt k q).st.credits = BitVec.ofNat 20 (Pkt.field p 0 0 20)
            ∧ (u.qout pt k q).st.nextSlot = BitVec.ofNat 20 (Pkt.field p 4 0 20))
      ∧ (s.delivers p 1 3 → b.valid = true → b.st.granted = true → Completes (.grant p) s fun t => t = s.taking p)
      ∧ (s.delivers p 1 4 → b.valid = true → b.st.granted = true → fromPeer p b.dst = true → Pkt.field p 4 0 1 = 0 →
          Completes (.credit p) s fun t => ∃ u : State, t = u.retry ∧ u = { s.taking p with qouts := u.qouts }
            ∧ (u.qout pt k q).st.credits.toNat = min b.st.capacity.toNat (b.st.credits.toNat + Pkt.field p 0 0 20))
      ∧ (s.delivers p 1 5 → b.valid = true → fromPeer p b.dst = true → Completes (.qack p) s fun t => ∃ u : State,
          t = u.retry ∧ u = { s.taking p with qouts := u.qouts } ∧ (u.qout pt k q).unacked = b.unacked - Pkt.field p 4 0 3)
      ∧ (s.delivers p 3 2 → x.cfg.enable = true → x.src = asker →
          Completes (.grantReq p) s fun t => t = (s.taking p).send (grantPkt s pt x) ∧ t.carries (grantPkt s pt x))
      ∧ (s.delivers p 3 3 → b.valid = true → b.st.broken = false → Pkt.field p 2 0 1 = 0 → Completes (.notice p) s fun t => ∃ u : State,
          t = u.retry ∧ u = { s.taking p with qouts := u.qouts, cores := u.cores } ∧ (u.qout pt k q).st.broken = true
            ∧ (u.qout pt k q).unacked = 0 ∧ (u.qout pt k q).breakReason = BitVec.ofNat 16 (Pkt.field p 0 0 16))
      ∧ (s.delivers p 3 3 → x.cfg.enable = true → x.st.flushed = false → Pkt.field p 2 0 1 = 1 → Completes (.notice p) s fun t =>
          ∃ u : State, t = u.retry ∧ (u.qin pt k q).words = [] ∧ (u.qin pt k q).st.flushed = true
            ∧ (BitVec.ofNat 16 (Pkt.field p 0 0 16) ≠ (0 : Code) → (u.qin pt k q).st.reason = BitVec.ofNat 16 (Pkt.field p 0 0 16)))

/-- R160, R161: HQ_HEAD moves forward over words that wait and returns them to the producer; a write of any other value, by another
host or of a slot without a queue, changes no queue; HQ_TAIL passes a word that is present, its writes being acknowledged. -/
def Obligations.HostQueuesAdvanceHeadAndTail : Prop :=
  ∀ (p : PartNo) (n : Fin 16) (v : BitVec 32) (host : Bool) (s : State),
    let h := (s.part p).hostQs[n]
    let x := s.qin p h.side.1 h.side.2
    let w := x.st.capacity.toNat
    let d := wordDistance w h.head.toNat (v.toNat % 2 ^ 20)
    let t := h.tail.tail.toNat
    s.asleep = false →
    (s.owner p = host → s.partExists p = true → h.cfg.active = true → v.toNat % 2 ^ 20 < w → v.toNat % 2 ^ 20 ≠ h.head.toNat → h.head.toNat < w →
        d ≤ h.waiting w → Completes (.hqHeadWrite host p n v) s fun u =>
          (u.part p).hostQs[n].head.toNat = v.toNat % 2 ^ 20 ∧ (u.part p).hostQs[n].tail.armed = true
            ∧ (u.qin p h.side.1 h.side.2).st.head.toNat = v.toNat % 2 ^ 20
            ∧ (∀ j, j < d → Table.get none (u.qin p h.side.1 h.side.2).words (wordSlot w h.head.toNat j) = none)
            ∧ u = { s with parts := u.parts, qins := u.qins, fab := u.fab })
      ∧ (s.owner p ≠ host ∨ h.cfg.active = false ∨ w ≤ v.toNat % 2 ^ 20 ∨ h.waiting w < d → Completes (.hqHeadWrite host p n v) s fun u =>
          u.qins = s.qins ∧ u.parts = s.parts ∧ u.fab = s.fab)
      ∧ (∀ wd, Table.get none x.present t = some wd → h.cfg.active = true → h.tail.full = false →
          Completes (.hqTailAdvance p n) s fun u => (u.part p).hostQs[n].tail.tail = BitVec.ofNat 20 (wordSlot w t 1)
            ∧ (wd.fin = true → (u.part p).hostQs[n].tail.armed = false)
            ∧ (wd.fin = false → (u.part p).hostQs[n].tail.armed = h.tail.armed) ∧ u.cores = s.cores)
/-! ## DMA engines -/

/-- R118, R119, R168 to R171, R174, R175: the next request of a linear or strided transfer: within the partition it is on the mesh with
the source's bytes, to another place it is a WRITE packet with them, from another place a READ packet, and the channel keeps it; a read
that an earlier write of the channel precedes waits, one of a granule with another owner and a request that breaks R169 stop the
engine; a transfer whose requests are all over is counted and makes room. -/
def Obligations.DmaTransfersIssueAndComplete : Prop :=
  ∀ (cl : Fin 32) (ch : Fin 16) (p : PartNo) (l : Nat) (x : DmaPost) (rest : List DmaPost) (s : State),
    let c := s.chan cl ch
    let d := DmaDesc.ofBits x.desc
    let u := c.nextUnit
    let b := c.nextByte
    let ssum : Int := d.src.byte + d.shift false u 0 + b
    let dsum : Int := d.dst.byte + d.shift true u 0 + b
    let len := min (d.unitLen u - b) (min (256 - (ssum % 256).toNat) (256 - (dsum % 256).toNat))
    let issues (P : State → Prop) : Prop := Completes (.dmaRequestIssue cl ch) s P
    let kept (t : State) : Prop := (t.chan cl ch).out.length = c.out.length + 1 ∧ (t.chan cl ch).descs = c.descs
      ∧ (t.chan cl ch).nextSeq = c.nextSeq + 1
    let first : Prop := ∀ y ∈ c.out, y.reading = false ∧ y.data = none
    s.clusterPart cl = some (p, l) → c.descs = x :: rest → c.state = 1 → s.dma[cl].status.stopped = false → s.partLive p = true →
    (d.kind < 2 → u < d.units → s.dma[cl].outstanding < 512 → s.replyFits p (BitVec.ofNat 16 (0x400 + l)) 1 1 = true →
      (∀ sa da, s.reqAddr p d.src d.srcW ssum len = .ok sa → s.reqAddr p d.dst d.dstW dsum len = .ok da →
        let bs := s.spaceBytes p d.src.space d.src.unit sa len
        let part (o n : Nat) : List Byte × Bool := (((bs.drop o).take n).map (·.1), ((bs.drop o).take n).any (·.2))
        let reads : Prop := s.isLocal p d.src = true ∧ (d.src.space = 0 → s.readWaits (.dma cl ch) p sa len = false)
        let clear : Prop := d.src.space = 0 → s.ownerClash p sa len = false
        (reads → clear → first → s.isLocal p d.dst = true → issues fun t => kept t ∧ t = { s with mesh := t.mesh, dma := t.dma }
            ∧ t.mesh = s.mesh ++ (pieces d.dst.space da len).map fun y =>
                { src := .dma cl ch, part := p, space := d.dst.space, unit := d.dst.unit, addr := y.1, bytes := (part (y.1 - da) y.2).1,
                  poison := (part (y.1 - da) y.2).2, ack := .piece cl ch c.nextSeq })
        ∧ (reads → clear → first → s.isLocal p d.dst = false → issues fun t => kept t
            ∧ t = { s with dma := t.dma, reply := t.reply, fab := t.fab }
            ∧ ∃ reply, t.carries (reqPkt s p d.dst.device d.dst.part 0 d.dst.space (d.dst.remote da) len reply []
                (dataCells da len fun lo n => part (lo - da) n)))
        ∧ (s.isLocal p d.src = false → issues fun t => kept t ∧ t = { s with dma := t.dma, reply := t.reply, fab := t.fab }
            ∧ ∃ reply, t.carries (reqPkt s p d.src.device d.src.part 2 d.src.space (d.src.remote sa) len reply [] []))
        ∧ (s.isLocal p d.src = true → d.src.space = 0 → s.readWaits (.dma cl ch) p sa len = true → issues fun t => t = s)
        ∧ (reads → d.src.space = 0 → s.ownerClash p sa len = true → issues fun t => t.dma[cl].status.stopped = true
            ∧ t.dma[cl].status.code = 0x0206 ∧ t.dma[cl].status.failedCh = BitVec.ofNat 4 ch.val
            ∧ t.dma[cl].err = operandAt d.src d.srcW sa ∧ t.mesh = s.mesh ∧ t.fab = s.fab))
      ∧ (∀ a ov, s.reqAddr p d.src d.srcW ssum len = .error (a, ov) → Completes (.dmaRequestIssue cl ch) s fun t =>
          t = { s with dma := t.dma } ∧ t.dma[cl].status.stopped = true ∧ t.dma[cl].status.code = 0x0209
            ∧ t.dma[cl].status.failedCh = BitVec.ofNat 4 ch.val ∧ t.dma[cl].err = a ∧ t.dma[cl].status.offsetOverflow = ov))
      ∧ (d.units ≤ u → c.out = [] → c.failUnit = none → d.notify = false → x.op = none → Completes (.dmaDescriptorComplete cl ch) s fun t =>
          ∃ v : State, t = (v.postAll p).retry ∧ v = { s with dma := v.dma } ∧ (v.chan cl ch).descs = rest
            ∧ (v.chan cl ch).count.count = c.count.count + 1 ∧ (v.chan cl ch).progress.doneUnits = 0
            ∧ (c.count.count + 1 = c.count.irqAt → c.count.count + 1 ≠ 0 → (v.chan cl ch).irqPending = true)
            ∧ (rest = [] → (v.chan cl ch).state = 0) ∧ (rest ≠ [] → (v.chan cl ch).state = 1))

/-- R172, R174 to R177: a time-out stops the engine; once its responses have settled the failed channel loses its poster's work and
the others with work are stopped; RESUME goes on at the first unit not done; CANCEL removes the poster's descriptors; a channel leaves
cancelling; the bound vector is raised once. -/
def Obligations.DmaErrorsResumeCancelAndInterrupts : Prop :=
  ∀ (cl : Fin 32) (ch : Fin 16) (p : PartNo) (l n : Nat) (s : State), s.clusterPart cl = some (p, l) →
    let c := s.chan cl ch
    let e := s.dma[cl]
    let fc : Fin 16 := toFin 16 e.status.failedCh.toNat
    (∀ x, c.out.find? (fun y => y.seq == n && y.data.isNone) = some x → e.status.stopped = false → Completes (.dmaRequestTimeout cl ch n) s fun t =>
        t.dma[cl].status.stopped = true ∧ t.dma[cl].status.code = 0x0210 ∧ t.dma[cl].err = x.addr
          ∧ (∀ y ∈ (t.chan cl ch).out, y.seq ≠ n) ∧ t = { s with dma := t.dma, reply := t.reply })
      ∧ (∀ x rest, e.status.stopped = true → e.settled = false → (∀ i : Fin 16, e.chans[i].out = []) → s.partLive p = true →
          e.chans[fc].descs = x :: rest → x.op = none → Completes (.dmaEngineStopped cl) s fun t => ∃ v : State, t = v.retry
            ∧ v = { s with dma := v.dma } ∧ v.dma[cl].settled = true
            ∧ (∀ y ∈ v.dma[cl].chans[fc].descs, ¬ (y.poster = x.poster ∧ y.op = none))
            ∧ ∀ i : Fin 16, i ≠ fc → e.chans[i].state = 1 → v.dma[cl].chans[i].state = 2)
      ∧ (s.fwLive = true → (c.state = 2 ∨ c.state = 3) → e.settled = true → Completes (.resume cl ch) s fun t => t = { s with dma := t.dma }
          ∧ (t.chan cl ch).state = (if c.descs = [] then 0 else 1) ∧ (t.chan cl ch).nextUnit = c.doneUnits ∧ (t.chan cl ch).nextByte = 0
          ∧ (t.chan cl ch).descs = c.descs)
      ∧ (∀ x rest, c.descs = x :: rest → s.fwLive = true → Completes (.cancel cl ch) s fun t => ∃ v : State, t = v.retry
          ∧ v = { s with dma := v.dma } ∧ ∀ y ∈ (v.chan cl ch).descs, ¬ (y.poster = x.poster ∧ y.op = x.op))
      ∧ (c.irqPending = true → s.fwLive = true → ∀ v, c.irqVector = some v → Completes (.irqPendingClear cl ch) s fun t =>
          (t.chan cl ch).irqPending = false ∧ t = { s.raiseVector (s.owner p) v with dma := t.dma })
      ∧ (c.state = 4 → c.cancelled = [] → Completes (.dmaCancelEnd cl ch) s fun t => ∃ v : State, t = (v.postAll p).launchReady p
          ∧ v = { s with dma := v.dma } ∧ (v.chan cl ch).state = if c.descs = [] then 0 else if e.status.stopped = true then 2 else 1)

/-! ## Host interfaces -/

/-- R119, R178, R180, R182 to R184, R186, R369, R380: a port reset leaves the function at its reset and the window of its partitions at zero; a link that
comes up; a BAR2 read delivers the bytes, a refused one all ones; a BAR2 write is on the mesh; an
access that must wait is held by its port, and so is every one while the package sleeps; the function's identity; a BAR0 read and a write of BAR2_BASE;
an access that is not allowed is counted and does nothing else. -/
def Obligations.PortsAndWindowsServeTheirHost : Prop :=
  ∀ (host : Bool) (kind : PortResetKind) (offset n : Nat) (bytes : List Byte) (ep : Bool) (p : PartNo) (value : Nat) (s : State),
    let at_ := s.bar2At host offset
    let counted (t : State) : Prop :=
      (t.hostPort host).violation.count = satInc (s.hostPort host).violation.count ∧ t = { s with host := t.host }
        ∧ t.host.mailboxes = s.host.mailboxes ∧ t.host.journal = s.host.journal
    (Completes (.pciePortReset host kind) s fun t =>
        (t.hostPort host).violation.count = 0 ∧ (t.hostPort host).msix = [] ∧ (t.hostPort host).pba = 0
          ∧ (kind = .linkDown ∨ kind = .perst → (t.hostPort host).up = false)
          ∧ (kind = .flr ∨ kind = .hot → (t.hostPort host).up = (s.hostPort host).up)
          ∧ t.hostPort (!host) = s.hostPort (!host) ∧ (∀ q, s.owner q = host → (t.part q).bar2Base = 0)
          ∧ (∀ q, s.owner q ≠ host → t.part q = s.part q) ∧ t = { s with host := t.host, parts := t.parts })
      ∧ (s.boot.status.halted = false → s.clocks.pkg ≠ .ps4 → Completes (.pcieLinkUp host) s fun t => (t.hostPort host).up = true
          ∧ (host = true → t.clocks.clk.refPcieB = true) ∧ (host = false → t.clocks.clk.refPcieA = true)
          ∧ t = { s with host := t.host, clocks := t.clocks })
      ∧ (Completes (.registerWrite host (.bar2Size ⟨0, by decide⟩)) s fun t => (t.hostPort host).bar2Gib = 64
          ∧ t = { s with host := t.host })
      ∧ ((s.hostPort host).up = true → s.asleep = true →
          let rests (instr : Instr) (x : BarAccess) : Prop := Completes instr s fun t =>
            t = s.setHostPort host { s.hostPort host with resting := (s.hostPort host).resting ++ [x] }
          rests (.bar2Read host offset n) (.bar2Read offset n) ∧ rests (.bar2Write host offset bytes ep) (.bar2Write offset bytes ep)
            ∧ rests (.registerWrite host (.read offset n)) (.read offset n)
            ∧ rests (.registerWrite host (.write offset n value)) (.write offset n value))
      ∧ ((s.hostPort host).up = true → Completes (.registerWrite host (.config .identity)) s fun t =>
          t = { s with host := { s.host with readOut := [(s.configRead host .identity, false)] } }
            ∧ natOfBytes (s.configRead host .identity) % 2 ^ 16 = 0x1F7C)
      ∧ ((s.hostPort host).up = true → s.asleep = false →
          let free (x : HeldAccess) : Prop := s.mayServe host (s.hostPort host).held x = true
          let holds (instr : Instr) (x : HeldAccess) : Prop := ¬ free x → Completes instr s fun t =>
            t = s.setHostPort host { s.hostPort host with held := (s.hostPort host).held ++ [x] }
          (s.bar2Ok host offset n false = true → free (.bar2Read offset n) → Completes (.bar2Read host offset n) s fun t =>
              t.host.readOut = (pieces 0 at_.2 n).map (fun y => (s.viewBytes at_.1 y.1 y.2, s.view at_.1 y.1 == .poison))
                ∧ (s.ownerClash at_.1 at_.2 n = false → (∀ y ∈ pieces 0 at_.2 n, s.view at_.1 y.1 ≠ .poison) → t = { s with host := t.host }))
          ∧ (s.bar2Held at_.1 = false → (s.hostPort host).held = [] →
              (s.readWaits (.host host) at_.1 at_.2 n = false → free (.bar2Read offset n)) ∧ free (.bar2Write offset bytes ep))
          ∧ (s.bar2Ok host offset n false = true → s.bar2Held at_.1 = true ∨ s.readWaits (.host host) at_.1 at_.2 n = true →
              ¬ free (.bar2Read offset n))
          ∧ holds (.bar2Read host offset n) (.bar2Read offset n) ∧ holds (.bar2Write host offset bytes ep) (.bar2Write offset bytes ep)
          ∧ (s.bar2Ok host offset n false = false → Completes (.bar2Read host offset n) s fun t =>
              counted t ∧ t.host.readOut = [(List.replicate n 0xFF, false)])
          ∧ (s.bar2Ok host offset bytes.length true = true → free (.bar2Write offset bytes ep) → Completes (.bar2Write host offset bytes ep) s
              fun t => t = { s with mesh := s.mesh ++ (pieces 0 at_.2 bytes.length).map fun y =>
                      { src := .host host, part := at_.1, space := 0, addr := y.1, bytes := (bytes.drop (y.1 - at_.2)).take y.2, poison := ep } })
          ∧ (s.bar2Ok host offset bytes.length true = false → Completes (.bar2Write host offset bytes ep) s counted)
          ∧ (s.sees host offset = true → s.readForm host offset n = true → Completes (.registerWrite host (.read offset n)) s fun t =>
              t = { s with host := { s.host with readOut := [(s.bar0Read host offset n, false)] } })
          ∧ (s.sees host offset = false → Completes (.registerWrite host (.write offset n value)) s counted)
          ∧ (s.partExists p = true → s.owner p = host → s.resetting = false →
              Completes (.registerWrite host (.write (partBlock p + 8) 8 value)) s fun t =>
                (t.part p).bar2Base = BitVec.ofNat 10 (value / 2 ^ 30) ∧ (∀ q, q ≠ p → t.part q = s.part q) ∧ t = { s with parts := t.parts }))

/-- R185, R187, R190 to R192, R198, R199: a host posts a FREE mailbox that it sees and frees a DONE one, and the move of the chip
owner takes effect with that; a sweep of the scanner accepts or refuses every POSTED one; EVT_HEAD moves the ring's head. Every write
that is not honoured is counted and leaves mailboxes as they are; a status write waits for the port's earlier memory writes. -/
def Obligations.MailboxesPostScanAndFree : Prop :=
  ∀ (host : Bool) (mb : MbId) (log : Option PartNo) (value : Word) (s : State),
    let m := s.mailbox mb
    let st := m.status.state
    let held := (s.hostPort host).held
    let clear : Prop := s.hostWrites host = false ∧ held.any HeldAccess.writes = false
    s.asleep = false →
    (s.seesMb host mb = true → s.resetting = false → clear →
        (st = 0 → Completes (.mbPost host mb) s fun t => (t.mailbox mb) = { m with status := { m.status with state := 1 }, port := host }
          ∧ t = { s with host := { s.host with mailboxes := t.host.mailboxes } } ∧ ∀ n, mbKey n ≠ mbKey mb → t.mailbox n = s.mailbox n)
        ∧ (st = 3 → s.host.ownerMove = none → Completes (.mbFree host mb) s fun t => (t.mailbox mb).status.state = 0
          ∧ t = { s with host := { s.host with mailboxes := t.host.mailboxes } } ∧ ∀ n, mbKey n ≠ mbKey mb → t.mailbox n = s.mailbox n)
        ∧ (∀ b, st = 3 → mb.chip = true → s.host.ownerMove = some (mbKey mb, b) → Completes (.mbFree host mb) s fun t =>
            t.host.chipOwner = b ∧ t.host.ownerMove = none ∧ (t.mailbox mb).status.state = 0))
      ∧ (¬ clear → (Completes (.mbPost host mb) s fun t => t = s.setHostPort host { s.hostPort host with held := held ++ [.post mb] })
          ∧ Completes (.mbFree host mb) s fun t => t = s.setHostPort host { s.hostPort host with held := held ++ [.free mb] })
      ∧ (clear → s.seesMb host mb = false ∨ st ≠ 0 → Completes (.mbPost host mb) s fun t => t.host.mailboxes = s.host.mailboxes
          ∧ (t.hostPort host).violation.count = satInc (s.hostPort host).violation.count)
      ∧ (clear → s.seesMb host mb = false ∨ st ≠ 3 → Completes (.mbFree host mb) s fun t => t.host.mailboxes = s.host.mailboxes
          ∧ (t.hostPort host).violation.count = satInc (s.hostPort host).violation.count)
      ∧ (s.fwLive = true → s.boot.status.ready = true → s.clocks.pkg = .run → Completes .mailboxScan s fun t =>
          ∀ i, i < 272 → let n := scanMb i
            ((s.mailbox n).status.state = 1 → (n.chip = true ∨ (s.part n.part).state ≠ 1) →
              (t.mailbox n).status.state = 2 ∨ (t.mailbox n).status.state = 3)
            ∧ ((s.mailbox n).status.state ≠ 1 → t.mailbox n = s.mailbox n))
      ∧ (s.seesLog host log = true → s.resetting = false →
          (((s.evtLog log).tail.tail - (EvtCtrl.ofWord value).head).toNat ≤ 256 → Completes (.evtHeadWrite host log value) s fun t =>
            (t.evtLog log).ctrl = EvtCtrl.ofWord value ∧ (t.evtLog log).entries = (s.evtLog log).entries
              ∧ (t.evtLog log).tail = (s.evtLog log).tail)
          ∧ (256 < ((s.evtLog log).tail.tail - (EvtCtrl.ofWord value).head).toNat → Completes (.evtHeadWrite host log value) s fun t =>
            t.evtLog log = s.evtLog log))
/-! ## Commands -/

/-- R172, R176, R191, R194, R195, R225, R229: the commands of a partition's mailboxes for queries, channels and strata, each with its
effect, its response and the final state of its journal entry. -/
def Obligations.PartitionCommandsForChannelsAndStrata : Prop :=
  ∀ (mb : MbId) (s : State),
    let m := s.mailbox mb
    let p := mb.part
    let q := s.part p
    let cl := s.cluster p (m.arg 8 0 5)
    let named := (List.finRange 16).filter fun c => (m.arg 0xC 0 16).testBit c.val
    let ch : Fin 16 := toFin 16 (m.arg 9 0 4)
    let n := m.arg 8 0 6
    let check := s.stratumCheck p n (m.arg 0x10 0 64) (m.arg 0x18 0 32)
    let only (t : State) : Prop := t = { s with host := t.host }
    let meets (t : State) : Prop :=
      t = { s with host := t.host, parts := t.parts, hbm := { s.hbm with mcs := t.hbm.mcs }, mgmt := t.mgmt }
    let detail (n c : Nat) : Nat := (packFields (n := 384) [(0, 16, s.mgmt.fw.major.toNat), (16, 16, s.mgmt.fw.minor.toNat),
      (32, 32, n), (64, 32, c), (96, 5, s.licence.granted.toNat)]).toNat
    (s.accepted mb 1 = true → Completes (.nopCommand mb) s fun t => s.completed t mb 0 0 ∧ only t)
      ∧ (s.accepted mb 2 = true → mb.chip = false → Completes (.query mb) s fun t =>
          only t ∧ s.completed t mb 0 (detail q.clusters.length q.capacity.capacityGib.toNat))
      ∧ (s.accepted mb 2 = true → mb.chip = true → Completes (.query mb) s fun t =>
          t = { s with host := t.host, freeCtr := t.freeCtr } ∧ ∃ n c, s.completed t mb 0 (detail n c))
      ∧ (s.accepted mb 0x30 = true → (∀ c ∈ named, (s.chan cl c).state = 2 ∨ (s.chan cl c).state = 3) → s.dma[cl].settled = true →
          Completes (.dmaResume mb) s fun t => s.completed t mb 0 0 ∧ t = { s with host := t.host, dma := t.dma }
            ∧ (∀ c ∈ named, (t.chan cl c).state = (if (s.chan cl c).descs = [] then 0 else 1) ∧ (t.chan cl c).nextUnit = (s.chan cl c).doneUnits)
            ∧ ∀ c, c ∉ named → t.chan cl c = s.chan cl c)
      ∧ (s.accepted mb 0x30 = true → (∃ c ∈ named, (s.chan cl c).state ≠ 2 ∧ (s.chan cl c).state ≠ 3) →
          Completes (.dmaResume mb) s fun t => s.completed t mb 0x0103 0 ∧ only t)
      ∧ (s.accepted mb 0x31 = true → Completes (.dmaIrqBind mb) s fun t => s.completed t mb 0 0 ∧ t = { s with host := t.host, dma := t.dma }
          ∧ (t.chan cl ch).irqVector = some (BitVec.ofNat 8 (m.arg 0xA 0 8)) ∧ (t.chan cl ch).count.irqAt = BitVec.ofNat 32 (m.arg 0xC 0 32)
          ∧ (t.chan cl ch).count.count = (s.chan cl ch).count.count)
      ∧ (∀ x, s.accepted mb 0x20 = true → check = .ok x → Completes (.stratumRegister mb) s fun t => s.completed t mb 0 0
          ∧ (t.part p).strata = q.strata ++ [(n, x)] ∧ meets t)
      ∧ (∀ c, s.accepted mb 0x20 = true → check = .error c → Completes (.stratumRegister mb) s fun t => s.completed t mb c 0
          ∧ t.parts = s.parts ∧ meets t)
      ∧ (s.accepted mb 0x21 = true → (s.stratum p n).isSome = true → q.stream = none → Completes (.stratumDrop mb) s fun t =>
          s.completed t mb 0 0 ∧ t.stratum p n = none ∧ (∀ k, k ≠ n → t.stratum p k = s.stratum p k)
            ∧ (q.prepared.stratum.toNat = n → (t.part p).prepared.valid = false))
      ∧ (s.accepted mb 0x21 = true → s.stratum p n = none → Completes (.stratumDrop mb) s fun t => s.completed t mb 1 0 ∧ only t)

/-- R131, R132, R193, R195, R201, R206, R208, R239, R241, R412, R415, R416: the commands for streams, the journal, energy records, dumps
and a partition's reset. A STREAM_START waits in the queue; STREAM_ABORT ends a waiting stream and its own command at once, lets a
running one end early with 0x0107, and answers 1 or 0x0108 of one that has ended or is not known; JOURNAL_READ and ENERGY_READ write the
entries and records that the spec names to their buffer; DUMP_RELEASE waits for the dump area's sweep; PART_RESET is due until its dump is
taken, begins where none is taken, and joins one in progress. -/
def Obligations.PartitionCommandsForStreamsAndRecords : Prop :=
  ∀ (mb : MbId) (s : State),
    let m := s.mailbox mb
    let p := mb.part
    let q := s.part p
    let seq := BitVec.ofNat 48 (m.arg 8 0 48)
    let rs := q.records.filter fun r => r.seq == seq
    let others (t : State) : Prop := ∀ r, r ≠ p → t.part r = s.part r
    let notOpen (n : BitVec 48) : Prop := ∀ x, q.stream = some x → x.seq ≠ n
    let buffer : PartNo := if mb.chip then toFin 4 (m.arg 0x20 0 2) else p
    let first := BitVec.ofNat 48 (m.arg 8 0 48)
    let es := (s.journalEntries.filter fun e => e.shownTo mb m.port && decide ((e.seq - first).toNat < 2 ^ 47)).take (m.arg 0x10 0 13)
    let oldest : BitVec 48 := (s.journalEntries.head?.map (·.seq)).getD 0
    (s.accepted mb 0x40 = true → Completes (.journalRead mb) s fun t =>
        let detail : BitVec 384 := packFields [(0, 13, es.length),
          (16, 1, if (oldest - first).toNat < 2 ^ 47 ∧ oldest ≠ first then 1 else 0), (64, 48, s.host.lastSeq.toNat), (128, 48, oldest.toNat)]
        s.completed t mb 0 detail.toNat ∧ t.parts = (s.stackWrite buffer (m.arg 0x18 0 64)
            ((es.map fun e => bytesOfNat 64 e.word.toNat).flatten) false).parts
          ∧ t.hbm = (s.stackWrite buffer (m.arg 0x18 0 64) ((es.map fun e => bytesOfNat 64 e.word.toNat).flatten) false).hbm
          ∧ t = { s with host := t.host, parts := t.parts, hbm := t.hbm, mgmt := t.mgmt })
    ∧ (mb.chip = false →
      (s.accepted mb 0x10 = true → notOpen m.seq → (∀ e ∈ q.queue, e.1 ≠ m.seq) → Completes (.streamStart mb) s fun t =>
        t = { s with parts := t.parts } ∧ t.part p = { q with queue := q.queue ++ [(m.seq, mb)] } ∧ others t)
      ∧ (∀ e, s.accepted mb 0x11 = true → notOpen seq → q.queue.find? (fun e => e.1 == seq) = some e → mbKey e.2 ≠ mbKey mb →
          (s.mailbox e.2).seq.toNat % 4096 ≠ m.seq.toNat % 4096 →
          Completes (.streamAbort mb) s fun t => s.completed t mb 0 0 ∧ s.completed t e.2 0x0107 0
            ∧ t.part p = { q with queue := q.queue.erase e } ∧ others t ∧ t = { s with host := t.host, parts := t.parts })
      ∧ (s.accepted mb 0x11 = true → notOpen seq → q.queue.find? (fun e => e.1 == seq) = none → Completes (.streamAbort mb) s fun t =>
          s.completed t mb (if s.streamEnded p seq then 1 else 0x0108) 0 ∧ t = { s with host := t.host })
      ∧ (∀ x, s.accepted mb 0x11 = true → q.stream = some x → x.seq = seq → mb ∉ x.aborters → Completes (.streamAbort mb) s fun t =>
          (x.ending = none → ∀ y, (t.part p).stream = some y → y.ending = some 0x0107 ∧ mb ∈ y.aborters)
            ∧ (x.ending ≠ none → t = { s with parts := t.parts } ∧ others t
              ∧ t.part p = { q with stream := some { x with aborters := x.aborters ++ [mb] } }))
      ∧ (s.accepted mb 0x60 = true → (rs ≠ [] → s.rangeOk p (m.arg 0x10 0 64) (64 * rs.length) = true) → Completes (.energyRead mb) s fun t =>
          let detail : BitVec 384 := packFields [(0, 16, rs.length), (16, 16, Table.get 0 q.lost seq.toNat)]
          s.completed t mb 0 detail.toNat
            ∧ t.parts = (s.stackWrite p (m.arg 0x10 0 64) ((rs.map EnergyRec.bytes).flatten) false).parts
            ∧ t.hbm = (s.stackWrite p (m.arg 0x10 0 64) ((rs.map EnergyRec.bytes).flatten) false).hbm
            ∧ t = { s with host := t.host, parts := t.parts, hbm := t.hbm, mgmt := t.mgmt })
      ∧ (s.accepted mb 0x51 = true → q.dumpSweep = none → q.dump = none → q.dumpHeld = true → Completes (.dumpRelease mb) s fun t =>
          s.completed t mb 0 0 ∧ (t.part p).dumpHeld = false ∧ (t.part p).rcv.dumpSlots = 0 ∧ (t.part p).gen.dumpGen = q.gen.dumpGen + 1
            ∧ (t.part p).gen.gen = q.gen.gen ∧ (t.part p).dumpSweep = some []
            ∧ t = { s with host := t.host, parts := t.parts, hbm := { s.hbm with mcs := t.hbm.mcs } })
      ∧ (s.accepted mb 0x51 = true → q.dumpSweep ≠ none → q.dump = none → q.dumpHeld = true → Completes (.dumpRelease mb) s fun t => t = s)
      ∧ (s.accepted mb 0x51 = true → q.dump = none → q.dumpHeld = false → Completes (.dumpRelease mb) s fun t =>
          s.completed t mb 1 0 ∧ t = { s with host := t.host })
      ∧ (s.accepted mb 0x51 = true → q.dump ≠ none → Completes (.dumpRelease mb) s fun t =>
          s.completed t mb 0x0103 0 ∧ t = { s with host := t.host })
      ∧ (s.accepted mb 0x50 = true → q.reset = none → s.rcv.config.dumpEn = true → s.boot.status.ready = true → q.state ≠ 0 →
          Completes (.partReset mb) s fun t => t = { s with parts := t.parts } ∧ others t
            ∧ t.part p = { q with reset := some { level := 3, trigger := 0x0705, mbs := [mb] }, dump := none })
      ∧ (s.accepted mb 0x50 = true → q.reset = none → s.rcv.config.dumpEn = false ∨ s.boot.status.ready = false ∨ q.state = 0 →
          Completes (.partReset mb) s fun t => (t.part p).state = 1 ∧ (t.part p).stream = none ∧ (t.part p).queue = []
            ∧ ∃ r, (t.part p).reset = some r ∧ r.draining = true ∧ r.mbs = [mb])
      ∧ (∀ r, s.accepted mb 0x50 = true → q.reset = some r → r.level = 3 → mb ∉ r.mbs → Completes (.partReset mb) s fun t =>
          t = { s with parts := t.parts } ∧ others t ∧ t.part p = { q with reset := some { r with mbs := r.mbs ++ [mb] } }))

/-- R113, R135, R187, R188, R195, R396, R407, R452, R458: the chip's commands. -/
def Obligations.ChipCommandsTakeEffect : Prop :=
  ∀ (mb : MbId) (s : State), mb.chip = true →
    let m := s.mailbox mb
    let p : PartNo := toFin 4 (m.arg 8 0 2)
    let slot := m.arg 8 0 1 == 1
    let read := s.stackRead p (m.arg 0x10 0 64) 160
    (s.accepted mb 0x100 = true → s.host.layoutMove = none → (∃ r, s.partExists r = true ∧ (s.part r).state ≠ 0) →
        (∀ r, s.partExists r = true → (s.part r).reset = none) → Completes (.layoutSet mb) s fun t =>
          (∃ d, t.host.layoutMove = some (mb, BitVec.ofNat 3 (m.arg 8 0 3), d, false)
            ∧ ∀ r : PartNo, d.getLsbD r.val = (s.partExists r && (s.part r).state == 0))
          ∧ ∀ r, s.partExists r = true → (s.part r).state ≠ 0 → (t.part r).state = 1 ∧ (t.part r).stream = none)
      ∧ (s.accepted mb 0x101 = true → (s.part p).reset = none → s.rcv.config.dumpEn = true → s.boot.status.ready = true →
          (s.part p).state ≠ 0 → Completes (.partAssign mb) s fun t => t = { s with parts := t.parts } ∧ (∀ r, r ≠ p → t.part r = s.part r)
            ∧ (t.part p).reset = some { level := 3, trigger := 0x0705, mbs := [mb], owner := some (m.arg 9 0 1 == 1) })
      ∧ (s.accepted mb 0x102 = true → Completes (.chipOwnerSet mb) s fun t => s.completed t mb 0 0
          ∧ t.host.ownerMove = some (mbKey mb, m.arg 8 0 1 == 1) ∧ t.host.chipOwner = s.host.chipOwner ∧ t = { s with host := t.host })
      ∧ (s.accepted mb 0x110 = true → s.rcv.chip = none → Completes (.chipReset mb) s fun t => t = s.askChipReset (m.arg 8 0 1 == 1) (some mb) none
          ∧ (s.rcv.config.dumpEn = true → s.cpRuns = true → s.boot.status.ready = true → (∃ r, s.partLive r = true ∧ (s.part r).reset = none) →
              ∃ c, t.rcv.chip = some c ∧ c.whole = (m.arg 8 0 1 == 1 || s.boot.config.wholeOnly) ∧ c.mb = some mb))
      ∧ (s.accepted mb 0x111 = true → Completes (.powerCycle mb) s fun t => s.completed t mb 0 0 ∧ t.rcv.powerCycle = true)
      ∧ (s.accepted mb 0x120 = true → s.activateCheck slot = 0 → Completes (.fwActivate mb) s fun t =>
          t = s.beginActivation { slot := slot, mb := some mb, msg := none, revert := none, start := s.time })
      ∧ (s.accepted mb 0x120 = true → s.activateCheck slot ≠ 0 → Completes (.fwActivate mb) s fun t => s.completed t mb (s.activateCheck slot) 0)
      ∧ (s.accepted mb 0x121 = true → m.arg 0x18 0 64 = 160 → s.rangeOk p (m.arg 0x10 0 64) 160 = true → read.2 = false →
          ∀ ok, Completes (.licenceInstall mb ok) s fun t =>
            t = (s.installLicence read.1 ok).1.completeCmd mb (s.installLicence read.1 ok).2 0)
      ∧ (s.accepted mb 0x121 = true → m.arg 0x18 0 64 ≠ 160 → ∀ ok, Completes (.licenceInstall mb ok) s fun t =>
          s.completed t mb 0x0102 0 ∧ t = { s with host := t.host })
/-! ## Streams -/

/-- R208, R209, R216 to R218, R220, R221, R224, R230: a waiting stream starts or fails its validation; the first eligible operation
starts as its code says: contexts to launch, descriptors to post, a queue set bound, a fence; in each the operation counts as
started. `u` is the state in which the operation is started and further phases may have opened. -/
def Obligations.StreamsBeginAndStartOperations : Prop :=
  ∀ (p : PartNo) (i : Nat) (x : Stream) (w : BitVec 512) (s : State),
    let begun := (s.updPart p fun q => { q with
      stream := some { x with opStates := x.opStates.set i .started },
      strmPos := ({ x with opStates := x.opStates.set i .started } : Stream).pos q.strmPos }).openPhases p x.phases
    let starts (instr : Instr) (P : State → State → Prop) : Prop := Completes instr s fun t => ∃ u : State, u = begun
      ∧ u.streamHas p (fun y => y.opStates[i]? = some .started ∧ y.ops = x.ops ∧ y.seq = x.seq) ∧ u.cores = s.cores ∧ u.dma = s.dma ∧ P u t
    (∀ e, (s.part p).stream = none → firstWaiting (s.part p).queue = some e → s.fwLive = true → s.partLive p = true →
        s.earlierStart p e.1 = false → bitsAt s.clocks.ps.partState.toNat (2 * p.val) 2 = 0 →
        ∃ u : State, (u.part p).stream = none ∧ (u.part p).queue = (s.part p).queue.erase e ∧ (u.part p).strmStatus = { seq := e.1, state := 1 }
          ∧ (u.jentry e.1).state = 2 ∧ (u.jentry e.1).tStarted = s.time ∧ u.cores = s.cores ∧ u.hbm.data = s.hbm.data
          ∧ u.hbm.metas = s.hbm.metas
          ∧ (∀ c, u.validate p ((s.mailbox e.2).arg 8 0 64) ((s.mailbox e.2).arg 0x10 0 32) ((s.mailbox e.2).arg 0x14 0 6) = .error c →
              Completes (.streamBegin p) s fun t => s.completed t e.2 c 0 ∧ (t.part p).stream = none ∧ (t.part p).state = 2)
          ∧ (∀ y, u.validate p ((s.mailbox e.2).arg 8 0 64) ((s.mailbox e.2).arg 0x10 0 32) ((s.mailbox e.2).arg 0x14 0 6) = .ok y →
              Completes (.streamBegin p) s fun t => ∃ (v : State) (z : Stream), (v.part p).stream = some z ∧ z.seq = e.1 ∧ z.mb = e.2 ∧ z.ops = y.ops
                ∧ z.opStates = y.ops.map (fun _ => .waiting) ∧ z.opened = 0
                ∧ (t = v.openPhases p (z.phases + 1) ∨ ∃ c, t = v.failStream p c)))
      ∧ (s.opReady p i x w →
          (opCode w = 1 → starts (.launch p i) fun u t =>
              t = (u.updStream p fun y => { y with toLaunch := y.toLaunch ++ (maskCores (opField w 0x14 0 32) (opField w 0x18 0 32)).map fun k =>
                { op := i, core := k } }).launchReady p)
          ∧ (opCode w = 2 → starts (.dmaOperation p i) fun u t =>
              t = (u.updStream p fun y => { y with posting := y.posting ++ [(i, 0)] }).postMore p i 8)
          ∧ (opCode w = 3 → starts (.queueSetup p i) fun u t => ∀ d, u.current p = some d →
              let bound := u.bindSet p { x with opStates := x.opStates.set i .started } d (opField w 0x10 0 4) (BitVec.ofNat 8 (opField w 0x11 0 8))
              (∀ v, bound = some v → t = v) ∧ (bound = none → t = u.failStream p 0x0102))
          ∧ (opCode w = 4 → starts (.streamFence p i) fun u t => t = u)
          ∧ (opCode w = 8 → (s.stratum p (opField w 0x10 0 6)).isSome = true → starts (.stratumLoad p i) fun u t =>
              t = { u with parts := t.parts } ∧ (t.part p).prepared = { stratum := BitVec.ofNat 6 (opField w 0x10 0 6), valid := true }
                ∧ (t.part p).stream = (u.part p).stream
                ∧ ∀ d, u.stratum p (opField w 0x10 0 6) = some d →
                    (t.part p).prep = some (u.prepare p { x with opStates := x.opStates.set i .started } d))
          ∧ (opCode w = 8 → s.stratum p (opField w 0x10 0 6) = none → starts (.stratumLoad p i) fun u t => t = u.failStream p 0x0108))

/-- R216, R219, R222, R223, R308, R313, R315, R316: a BARRIER sends its first round, a BARRIER that took too long fails its stream; a
collective of a group resolved earlier takes the group's next SEQ and its lanes are to be launched, one with bad operands fails; an
operation that has come to its end completes, and the stream with its last one. -/
def Obligations.BarriersCollectivesAndCompletions : Prop :=
  ∀ (p : PartNo) (i : Nat) (x : Stream) (w : BitVec 512) (s : State),
    let y := { x with opStates := x.opStates.set i .started }
    let begun := (s.updPart p fun q => { q with stream := some y, strmPos := y.pos q.strmPos }).openPhases p x.phases
    (s.opReady p i x w → opCode w = 5 → 1 < x.ranks.length → Completes (.barrier p i) s fun t => ∃ u : State,
        t = (u.sendBarrier p y (opField w 0x10 0 16) 0).advanceBarrier p i 16 ∧ u.streamHas p (fun z => z.rounds = x.rounds ++ [(i, 0)])
          ∧ u.cores = s.cores)
      ∧ (∀ k, (s.part p).stream = some x → x.rounds.lookup i = some k → k < barrierRounds x.ranks.length → x.opStates[i]? = some .started →
          Completes (.barrierTimeout p i) s fun t => t = s.failStream p 0x0306)
      ∧ (∀ d g, s.opReady p i x w → opCode w = 6 → begun.current p = some d → collectiveOk d w = true → (opField w 0x12 0 2 = 2 → g.axis y ≠ none) →
          x.groups.find? (fun g => g.number == BitVec.ofNat 16 (opField w 0x10 0 16)) = some g → opField w 0x16 0 10 < g.ranks.length →
          opField w 0x30 0 32 % (g.lanes.length * wordElems (opField w 0x12 4 4)) = 0 → Completes (.collectiveStart p i) s fun t =>
            ∃ u : State, t = u.launchReady p ∧ u.streamHas p (fun z =>
                (∃ c : Coll, z.colls = x.colls ++ [c] ∧ c.op = i ∧ c.group = g.number ∧ c.seq = g.nextSeq ∧ c.lanes = g.lanes
                  ∧ c.pos = g.pos ∧ c.size = g.ranks.length
                  ∧ c.mcast.isSome = (opField w 0x12 0 2 == 2 && g.pos == opField w 0x16 0 10))
                ∧ z.toLaunch = x.toLaunch ++ g.lanes.zipIdx.map (fun l => { op := i, core := toFin 1024 l.1.core, lane := l.2 })
                ∧ ∃ h ∈ z.groups, h.number = g.number ∧ h.nextSeq = (if g.nextSeq = BitVec.allOnes 32 then 1 else g.nextSeq + 1))
              ∧ u.cores = s.cores)
      ∧ (∀ d g, s.opReady p i x w → opCode w = 6 → begun.current p = some d → collectiveOk d w = false →
          x.groups.find? (fun g => g.number == BitVec.ofNat 16 (opField w 0x10 0 16)) = some g → Completes (.collectiveStart p i) s fun t =>
            t = begun.failStart p (BitVec.ofNat 16 (opField w 0x10 0 16)) g.nextSeq g.lanes 0x0102)
      ∧ ((s.part p).stream = some x → x.ops[i]? = some w → x.opStates[i]? = some .started → s.fwLive = true → x.ending = none →
          s.opDone p x i w = true → opSignal w = none → Completes (.operationComplete p i) s fun t => ∃ u : State,
            u.streamHas p (fun z => z.opStates = x.opStates.set i .completed ∧ z.ops = x.ops ∧ z.seq = x.seq
                ∧ z.colls = x.colls.filter (fun c => c.op != i))
              ∧ u.cores = s.cores
              ∧ ((∃ j : Nat, j < x.opStates.length ∧ j ≠ i ∧ x.opStates[j]? ≠ some .completed) → t = u.retry)
              ∧ ((∀ j : Nat, j < x.opStates.length → j ≠ i → x.opStates[j]? = some .completed) → x.phases ≤ x.opened → t = (u.finishStream p).retry))

/-- R216, R233 to R235, R238, R240, R350: a switch of strata ends the outgoing job and marks the stream as switching, and its end begins
the incoming job; a checkpoint writes the running job's record; hints are taken and expire, but not
while the power controller stalls (R365). -/
def Obligations.SwitchesCheckpointsAndHints : Prop :=
  ∀ (p : PartNo) (i : Nat) (x : Stream) (w : BitVec 512) (s : State),
    let y := { x with opStates := x.opStates.set i .started }
    let begun := (s.updPart p fun q => { q with stream := some y, strmPos := y.pos q.strmPos }).openPhases p x.phases
    (s.opReady p i x w → opCode w = 9 → (s.stratum p (opField w 0x10 0 6)).isSome = true → Completes (.stratumSwitch p i) s fun t =>
        t.streamHas p (fun z => z.switching = some i ∧ z.seq = x.seq ∧ ∀ j ∈ z.jobs, j.ended = true ∨ j ∈ x.jobs.dropLast)
          ∧ (t.part p).strmStatus.state = 3 ∧ (t.part p).prepared.valid = false ∧ (t.part p).prep = none
          ∧ ∃ u : State, u = begun.endForSwitch p ∧ t = { u with parts := t.parts })
      ∧ ((s.part p).stream = some x → x.switching = some i → x.ops[i]? = some w → s.fwLive = true → x.ending = none →
          Completes (.switchRestoreDone p) s fun t =>
            let r := s.beginJob p (opField w 0x10 0 6) (opField w 0x11 0 1 == 1) (BitVec.ofNat 64 (opField w 0x18 0 64))
              (BitVec.ofNat 8 (opField w 0x12 0 8))
            (r.2 = none → t = r.1.updStream p (fun z => { z with switching := none }))
              ∧ ∀ c, r.2 = some c → t = (r.1.updStream p (fun z => { z with switching := none })).failStream p c)
      ∧ (∀ j, s.opReady p i x w → opCode w = 10 → s.rangeOk p (opField w 0x10 0 40) 64 = true → x.job = some j →
          Completes (.energyCheckpoint p i) s fun t => begun.hbm = s.hbm ∧ begun.cores = s.cores
            ∧ begun.streamHas p (fun z => z.opStates[i]? = some .started)
            ∧ t = begun.stackWrite p (opField w 0x10 0 40) (begun.energyRec p y j true).bytes false)
      ∧ (s.opReady p i x w → opCode w = 7 → Completes (.hintHeavy p i) s fun t => begun.streamHas p (fun z => z.opStates[i]? = some .started)
          ∧ t = begun.takeHint p (opField w 0x10 0 7) (opField w 0x12 0 16)
              (((List.range (s.part p).clusters.length).filter fun l => opField w 0x14 0 32 == 0 || (opField w 0x14 0 32).testBit l).map (begun.cluster p)))
      ∧ (s.power.stalled = true → Completes (.hintExpiry p) s fun t => t = s)
      ∧ (∀ h, (s.part p).hint = some h → s.power.stalled = false → Completes (.hintExpiry p) s fun t => t = s.putHint p none ∧ (t.part p).hint = none
          ∧ (t.part p).stream = (s.part p).stream)

/-! ## Packets, links, clocks -/

/-- R112, R118, R119, R124, R277, R290, R291, R294, R301: a WRITE or RADD request that passes the tests of R291 goes to the mesh of its partition in
pieces that carry its bytes, their source the local interface nearest the target, one without bytes is acknowledged at once, a READ is
answered with the bytes once earlier writes of that interface to the same granules have been performed; a request that fails a
test, or names a partition that does not run, is refused. -/
def Obligations.RequestsAreServedOrRefused : Prop :=
  ∀ (p : Pkt) (s : State),
    let u := s.taking p
    let pt := pktPart p
    let a := Pkt.operand p
    let ack := MeshAck.packet p.src p.spart (replyUnit (Pkt.reply p)) (Pkt.reply p) p.mark
    let refuse : State → Code → State := fun v c => v.send (answerPkt s pt p.src p.spart (replyUnit (Pkt.reply p)) 2
      (replyDesc (Pkt.reply p) p.mark ++ [(8, 0, 16, c.toNat)]) [])
    let queued : Bool → State → Prop := fun radd t => t = { u with mesh := t.mesh } ∧ ∃ rs, t.mesh = s.mesh ++ rs
      ∧ rs.length = (pieces a.space a.byte (Pkt.len p)).length
      ∧ ∀ r ∈ rs, (r.addr, r.bytes.length) ∈ pieces a.space a.byte (Pkt.len p) ∧ r.src = .fabric (u.ejectPort p) ∧ r.part = pt ∧ r.space = a.space
        ∧ r.unit = a.unit ∧ r.radd = radd ∧ r.ack = ack ∧ r.bytes = (Pkt.bytesAt p a.byte r.addr r.bytes.length).1
    let denies : Instr → Bool → Prop := fun c wr => ∀ code log, s.denied p wr = some (code, log) → Completes c s fun t =>
      (log = false → t = refuse u code)
        ∧ (log = true → ∃ v : State, v = u.eventPart pt code (deniedDetail p a.space wr) ∧ t = refuse v code)
    let waits : Prop := a.space = 0 ∧ s.readWaits (.fabric (s.ejectPort p)) pt a.byte (Pkt.len p) = true
    (s.delivers p 0 0 → (s.denied p true = none → Pkt.len p ≠ 0 → Completes (.write p) s (queued false)) ∧ denies (.write p) true
        ∧ (s.denied p true = none → Pkt.len p = 0 → Completes (.write p) s fun t =>
            t = u.send (answerPkt s pt p.src p.spart (replyUnit (Pkt.reply p)) 0 (replyDesc (Pkt.reply p) p.mark) [])))
      ∧ (s.delivers p 0 1 → (s.denied p true = none → Pkt.len p ≠ 0 → Completes (.raddRequest p) s (queued true))
          ∧ denies (.raddRequest p) true)
      ∧ (s.denied p false = none → waits → Completes (.read p) s fun t => t = s)
      ∧ (s.delivers p 0 2 → (s.denied p false = none → ¬ waits → s.mismatchIn pt a.space a.byte (Pkt.len p) = none → Completes (.read p) s fun t =>
            t = u.send (answerPkt s pt p.src p.spart (replyUnit (Pkt.reply p)) 1
              (replyDesc (Pkt.reply p) p.mark ++ [(8, 0, 40, a.offset), (14, 0, 10, Pkt.len p)])
              (dataCells a.byte (Pkt.len p) fun lo n => s.spaceRead pt a.space a.unit lo n)))
          ∧ denies (.read p) false)
      ∧ (∀ key, s.delivers p 0 2 → s.denied p false = none → ¬ waits → s.mismatchIn pt a.space a.byte (Pkt.len p) = some key →
          Completes (.read p) s fun t => t = refuse (u.noteMismatch key) 0x0206)
      ∧ (p.cls = 0 → p.type = 0 → s.mayDeliver p = true → s.partLive pt = false → Completes (.write p) s fun t => t = refuse u 0x0302)

/-- R168, R171, R173, R174, R290, R294, R308: an answer whose generation is the reply slot's frees the slot, whose generation advances; an
acknowledgement ends a channel's write, RDATA brings a channel's bytes, a REFUSE and an expiry fail the requester; an answer for another
generation is discarded; a barrier packet enters the CP's receive ring of 4,096, and serving firmware keeps it, up to 256, unless its SEQ is
not the one its stream has recorded for the rank. -/
def Obligations.AnswersEndTheirRequests : Prop :=
  ∀ (p : Pkt) (pt : PartNo) (unit : BitVec 16) (slot : Nat) (use : ReplyUse) (s : State),
    let u := s.taking p
    let free := u.freeSlot pt unit slot
    (s.answered p = some (pt, unit, slot, use) → Pkt.field p 4 0 1 = 0 → p.cls = 1 → s.mayDeliver p = true →
        ((free.replySlot pt unit slot).use = none ∧ (free.replySlot pt unit slot).gen = (s.replySlot pt unit slot).gen + 1)
          ∧ (∀ k pc addr order, use = .put k pc addr order → p.type = 0 → Completes (.wack p) s fun t => t = free.retry)
          ∧ (∀ cl ch seq, use = .dmaWrite cl ch seq → p.type = 0 → Completes (.wack p) s fun t =>
              t = ((free.setChan cl ch ((s.chan cl ch).drop seq false)).dmaFlushAll pt (unit.toNat - 0x400) cl).retry)
          ∧ (∀ cl ch seq x, use = .dmaRead cl ch seq → p.type = 1 → (s.chan cl ch).out.find? (fun x => x.seq == seq) = some x →
              let bs := Pkt.eachByte p (Pkt.field p 8 0 40) x.len
              (s.dma[cl].status.stopped = false → Completes (.rdata p) s fun t => ∃ v : State, v = { free with dma := v.dma }
                  ∧ (v.chan cl ch).out = (s.chan cl ch).out.map (fun z => if z.seq == seq then { x with
                      reading := false, addr := operandAt (AddrOp.ofWord x.dst) x.dst x.dstAddr, data := some bs } else z)
                  ∧ (v.chan cl ch).poisonSeen = ((s.chan cl ch).poisonSeen || bs.any (·.2))
                  ∧ t = (v.dmaFlushAll pt (unit.toNat - 0x400) cl).retry)
                ∧ (s.dma[cl].status.stopped = true → Completes (.rdata p) s fun t =>
                    t = (free.setChan cl ch ((s.chan cl ch).drop seq true)).retry))
          ∧ (∀ k pc addr order, use = .put k pc addr order → p.type = 2 → (s.core pt k).ctx.isSome = true → Completes (.refuse p) s fun t =>
              t = (free.updCore pt k fun c => c.raise order 10 (BitVec.ofNat 16 (Pkt.field p 8 0 16)) pc addr).retry)
          ∧ (∀ cl ch seq, use = .dmaWrite cl ch seq ∨ use = .dmaRead cl ch seq → p.type = 2 → Completes (.refuse p) s fun t =>
              t = (free.failPiece cl ch seq (BitVec.ofNat 16 (Pkt.field p 8 0 16))).retry))
      ∧ (s.answered p = none → Pkt.field p 4 0 1 = 0 → p.cls = 1 → s.mayDeliver p = true →
          (p.type = 0 → Completes (.wack p) s fun t => t = u) ∧ (p.type = 1 → Completes (.rdata p) s fun t => t = u)
            ∧ (p.type = 2 → Completes (.refuse p) s fun t => t = u))
      ∧ (∀ (sl : BitVec 12), (s.replySlot pt unit sl.toNat).use = some use →
          (∀ k pc addr order, use = .put k pc addr order → (s.core pt k).ctx.isSome = true → Completes (.replySlotExpiry pt unit sl) s fun t =>
              t = ((s.freeSlot pt unit sl.toNat).updCore pt k fun c => c.raise order 10 0x0306 pc addr).retry)
            ∧ (∀ cl ch seq, use = .dmaRead cl ch seq → Completes (.replySlotExpiry pt unit sl) s fun t =>
                t = ((s.freeSlot pt unit sl.toNat).failPiece cl ch seq 0x0210).retry)
            ∧ (∀ base, use = .reserved base → Completes (.replySlotExpiry pt unit sl) s fun t => t = (s.freeSlot pt unit sl.toNat).retry))
      ∧ (s.delivers p 3 4 →
          let stale : Prop := ∃ x, (s.part (pktPart p)).stream = some x ∧ x.stale (KeptBarrier.ofPkt p) = true
          let overflows (t : State) : Prop := t = { u with fab := { u.fab with drop := { s.fab.drop with
            ctlOverflow := satInc s.fab.drop.ctlOverflow } } }
          (s.fwLive = true → s.fab.cpRing = [] → ¬ stale → (s.part (pktPart p)).kept.length < 256 → Completes (.barrierArrival p) s fun t =>
              ∃ v : State, v = { u with parts := v.parts }
                ∧ (v.part (pktPart p)).kept = (s.part (pktPart p)).kept ++ [KeptBarrier.ofPkt p] ∧ t = v.advanceBarriers (pktPart p))
            ∧ (s.fwLive = true → s.fab.cpRing = [] → stale → Completes (.barrierArrival p) s fun t => t = u)
            ∧ (s.fwLive = true → s.fab.cpRing = [] → ¬ stale → 256 ≤ (s.part (pktPart p)).kept.length →
                Completes (.barrierArrival p) s overflows)
            ∧ (4096 ≤ s.fab.cpRing.length → Completes (.barrierArrival p) s overflows)
            ∧ (s.fwLive = false → s.fab.cpRing.length < 4096 → Completes (.barrierArrival p) s fun t =>
                t = { u with fab := { u.fab with cpRing := s.fab.cpRing ++ [p] } }))

/-- R262, R266 to R268, R275, R279 to R296, R300, R303, R304: a packet at the head for its output goes to a local interface, to a port's
retry buffer and lanes, or ends as undeliverable, and its slot is freed; a member takes its copy of an MWRITE; hop credits are
taken and sent; a handover report hands the cells after LAST_LSEQ to the twin; without one they are discarded. The weighted choice
among classes is the model's (log 80). -/
def Obligations.FabricMovesPackets : Prop :=
  ∀ (place : PktPlace) (idx : Nat) (port : Fin 20) (p : Pkt) (s : State),
    let left : State → Prop := fun t => t = { s with fab := t.fab } ∧ match place with
      | .inject => t.fab.inject = s.fab.inject.eraseIdx idx
      | .pool n pool cls => t.pool (poolKey n pool.val cls.val) = (s.pool (poolKey n pool.val cls.val)).eraseIdx idx
        ∧ Table.get 0 t.fab.freed (poolKey n pool.val cls.val) = Table.get 0 s.fab.freed (poolKey n pool.val cls.val) + 1
    let sent : Fin 20 → Pkt → State → Prop := fun n r t => ∃ es : List SentCell, es.map (·.cell) = Pkt.cells r
      ∧ (∀ i e, es[i]? = some e → e.lseq = (s.link n).retry.nextLseq + BitVec.ofNat 12 i ∧ e.pkt = r)
      ∧ (t.link n).buffer = (s.link n).buffer ++ es ∧ t.fab.wire = s.fab.wire ++ es.map fun e => (n, (Wire.cell e.lseq e.cell).bits (s.link n).lastRx)
    let mp : PktPlace := .pool port (toFin 3 (pktPool p)) 0
    let key := poolKey port (pktPool p) 0
    let x := s.link port
    let u := s.taking p
    (∀ p0 level q, (s.packetsAt place)[idx]? = some (p0, level) → s.firstAt place idx p0 = true → q = { p0 with mark := p0.mark || level } →
        ¬(p0.cls = 0 ∧ p0.type = 3) →
        (s.moveOf q = .local → Completes (.packetForward place idx) s fun t => left t ∧ t.fab.deliver = s.fab.deliver ++ [q])
          ∧ (s.moveOf q = .lost → Completes (.packetForward place idx) s fun t => ∃ v, left v ∧ t = v.undeliverable q)
          ∧ (s.moveOf q = .wait → Completes (.packetForward place idx) s (· = s))
          ∧ (∀ n r, s.moveOf q = .go n r →
              (s.mayMove r (PktPlace.source place) (n, pktPool r) = true → s.mayShare n (toFin 4 q.cls.toNat) = true →
                Completes (.packetForward place idx) s fun t => left t ∧ sent n r t)
              ∧ ((s.mayMove r (PktPlace.source place) (n, pktPool r) && s.mayShare n (toFin 4 q.cls.toNat)) = false →
                Completes (.packetForward place idx) s (· = s))))
      ∧ (∀ p0, (s.packetsAt .inject)[idx]? = some (p0, false) → s.firstAt .inject idx p0 = true → p0.cls = 0 → p0.type = 3 →
          Completes (.packetForward .inject idx) s fun t => t = s.sendMwrite .inject idx p0 false)
      ∧ (∀ i level q mask, (s.pool key).findIdx? (fun e => e.1 == p) = some i → (s.pool key)[i]? = some (p, level) → p.cls = 0 → p.type = 3 →
          s.firstAt mp i p = true → q = { p with mark := p.mark || level } → mask = clearBit (Pkt.field p 16 0 8) (s.mwCoord p) →
          ((Pkt.field p 16 0 8).testBit (s.mwCoord p) = true → Completes (.mwrite port p) s fun t => ∃ v : State, v = { s with fab := v.fab }
            ∧ v.fab.deliver = s.fab.deliver ++ [Pkt.copyFor q s.self (s.mwCoord p)]
            ∧ v.pool key = (s.pool key).set i (Pkt.withMask p mask, level)
            ∧ t = v.sendMwrite mp i (Pkt.withMask q mask) (level && !p.mark))
          ∧ ((Pkt.field p 16 0 8).testBit (s.mwCoord p) = false → Completes (.mwrite port p) s fun t =>
            t = s.sendMwrite mp i q (level && !p.mark)))
      ∧ (p ∈ x.arrived → Completes (.hopCredit port p) s fun t => ∃ v : State, v = { s with fab := v.fab } ∧ t = v.pumpAll
            ∧ (v.link port).arrived = x.arrived.erase p ∧ ∀ i, i < 12 → ∃ c, c = Table.get {} v.fab.credits (poolKey port (i / 4) (i % 4))
              ∧ c.known = true ∧ c.size = BitVec.ofNat 8 (Pkt.field p (4 * i) 0 8) ∧ c.freed = BitVec.ofNat 16 (Pkt.field p (4 * i) 8 16)
              ∧ c.sent = (Table.get {} s.fab.credits (poolKey port (i / 4) (i % 4))).sent)
      ∧ (x.usable = true → x.room 1 = true → Completes (.hopCreditTimer port) s fun t => t = { s with fab := t.fab }
            ∧ sent port (s.hopCreditPkt port) t)
      ∧ (∀ twin before c rest, Pkt.field p 0 0 5 = port.val → p.cls = 3 → p.type = 1 → s.mayDeliver p = true → x.hand = .waiting twin →
          Pkt.field p 2 15 1 = 1 → x.buffer = before ++ c :: rest → c.lseq = BitVec.ofNat 12 (Pkt.field p 2 0 12) →
          (∀ b ∈ before, b.lseq ≠ c.lseq) → Completes (.handover port p) s fun t => ∃ v : State, v = { u with fab := v.fab }
            ∧ (v.link port).hand = .handing twin rest ∧ (v.link port).buffer = [] ∧ (v.link port).status.handover = true
            ∧ (v.link twin).status.carrying = true ∧ t = v.pump port 1024)
      ∧ (∀ twin, x.hand = .handing twin [] → Completes (.handoverEnd port) s fun t => t = { s with fab := t.fab } ∧ (t.link port).hand = .none
            ∧ (t.link port).status.handover = false ∧ (t.link twin).status.carrying = false)
      ∧ (∀ twin, x.hand = .waiting twin → Completes (.reportWaitExpiry port) s fun t => t = { s with fab := t.fab } ∧ (t.link port).hand = .none
            ∧ (t.link port).buffer = [] ∧ ∃ v : State, (v.link port).buffer = [] ∧ v.fab.deliver = s.fab.deliver
              ∧ t = (lostPkts x.buffer).foldl State.undeliverable v)

/-- R300, R302, R306, R307: a probe is sent with the time, echoed with the times of its arrival and its echo, and its echo gives OFFSET and
ROUND_TRIP; a limiter's rate rises by 1 up to 64 and a limiter at full rate is freed; each class of each port is sampled into one bin.
That the halves round down is the model's choice (log 24). -/
def Obligations.ProbesLimitersAndHistograms : Prop :=
  ∀ (p : Pkt) (device : DeviceNo) (s : State),
    let u := s.taking p
    let t1 : Word := BitVec.ofNat 64 (Pkt.field p 0 0 64)
    let t2 : Word := BitVec.ofNat 64 (Pkt.field p 8 0 64)
    let t3 : Word := BitVec.ofNat 64 (Pkt.field p 16 0 64)
    (Completes (.probeStart device) s fun t => t = { s with fab := t.fab } ∧ t.carries (probePkt s device s.time 0 0 false)
        ∧ t.fab.probeSent = some s.time ∧ t.fab.probeCtrl = { device := device, done := false, failed := false })
      ∧ (p.cls = 3 → p.type = 5 → s.mayDeliver p = true → Pkt.field p 24 0 1 = 0 → Completes (.probe p) s fun t =>
          t = u.send (probePkt s p.src t1 s.time s.time true))
      ∧ (p.cls = 3 → p.type = 5 → s.mayDeliver p = true → Pkt.field p 24 0 1 = 1 → s.fab.probeSent = some t1 → p.src = s.fab.probeCtrl.device →
          s.mgmt.probe = none → Completes (.probe p) s fun t => t = { u with fab := t.fab } ∧ t.fab.probeSent = none
            ∧ t.fab.probeCtrl = { s.fab.probeCtrl with done := true }
            ∧ t.fab.probeResult.offset = BitVec.ofInt 32 (((t2 - t1) - (s.time - t3)).toInt / 2)
            ∧ t.fab.probeResult.roundTrip = ((s.time - t1) - (t3 - t2)).setWidth 32)
      ∧ (s.fab.probeSent.isSome = true → s.mgmt.probe = none → Completes .probeTimeout s fun t => t = { s with fab := t.fab }
          ∧ t.fab.probeSent = none ∧ t.fab.probeCtrl = { s.fab.probeCtrl with failed := true } ∧ t.fab.probeResult = s.fab.probeResult)
      ∧ (Completes (.rateLimitIncrease device) s fun t => t = { s with fab := { s.fab with limiters := t.fab.limiters } }
          ∧ t.fab.limiters.length = s.fab.limiters.length ∧ ∀ (i : Nat) (l : Limiter), s.fab.limiters[i]? = some l →
            t.fab.limiters[i]? = some (if l.dest = device then { l with rate := min 64 (l.rate + 1) } else l))
      ∧ (Completes (.rateLimiterFree device) s fun t => t = { s with fab := { s.fab with limiters := t.fab.limiters } }
          ∧ ∀ l, l ∈ t.fab.limiters ↔ l ∈ s.fab.limiters ∧ ¬(l.dest = device ∧ l.rate = 64))
      ∧ (Completes .histSample s fun t => t = { s with fab := { s.fab with hist := t.fab.hist } }
          ∧ ∀ (n : Fin 20) (c b : Nat), c < 4 → b < 9 → Table.get 0 t.fab.hist ((n.val * 4 + c) * 9 + b)
            = (let old := Table.get 0 s.fab.hist ((n.val * 4 + c) * 9 + b)
               if b = histBin (s.pool (poolKey n 0 c)).length (poolSize n 0 c) then satInc old else old))

/-- R251, R256 to R262, R275, R276, R280, R286: a cell on a link reads back as it was sent, its trailer carrying the cumulative
acknowledgement; what a port hears: FEC counts, acknowledgement, NAK and time-out replays, cells in order, packets, discards with
one NAK, IDENT and its check; what it sends at its deadlines. A link cell with a bad CRC or a reserved opcode does nothing more. -/
def Obligations.LinksHearReplayAndIdentify : Prop :=
  ∀ (port : Fin 20) (rx : LinkRx) (w : Wire) (ack : Option (BitVec 12)) (id : Ident) (s : State),
    let x := s.link port
    let fec := s.updLink port fun x => x.countFec s.time rx
    let only : State → Prop := fun t => t = { s with fab := t.fab } ∧ t.fab.pools = s.fab.pools ∧ ∀ n, n ≠ port → t.link n = s.link n
    let puts : List Wire → State → Prop := fun ws t => t.fab.wire = s.fab.wire ++ ws.map fun w => (port, w.bits x.lastRx)
    let cs := x.partialRx ++ [rx.cell]
    let count : Nat := match cs.head? with
      | some h => bitsAt h.header.toNat 21 4
      | none => 0
    let heads : Prop := ∃ h, cs.head? = some h ∧ h.header.getLsbD 20 = true
    let numbered : Prop := x.status.state = 3 ∧ rx.isLink = false
    let inOrder : Prop := numbered ∧ rx.crcOk = true ∧ rx.ack = none ∧ rx.lseq = x.expectLseq ∧ x.toAck + 1 < 64
    let accepted : State → Prop := fun v => only v ∧ (v.link port).expectLseq = x.expectLseq + 1 ∧ (v.link port).nakSent = false
      ∧ (v.link port).lastRx = some rx.lseq ∧ (v.link port).buffer = x.buffer
    let refused : State → Prop := fun t => only t ∧ (t.link port).expectLseq = x.expectLseq ∧ (t.link port).partialRx = x.partialRx
      ∧ (t.link port).nakSent = true ∧ puts (if x.nakSent then [] else [.link (.nak x.expectLseq)]) t
    let hear : Prop := x.hears = true ∧ rx.crcOk = true ∧ rx.ack = none
    let record : State → Prop := fun t => ∃ r, TrainRec.ofBits (t.link port).record = some r ∧ r.samePeer (peerOf id) = true
    (let r : LinkRx := { bits := w.bits ack }
     r.crcOk = true ∧ r.ack = ack ∧ match w with
      | .link c => r.isLink = true ∧ r.linkCell = some c
      | .cell n c => r.isLink = false ∧ r.lseq = n ∧ r.cell = c)
      ∧ (∀ errs, rx.fec = [errs] → (fec.link port).err.fecCorr = satAdd x.err.fecCorr
          ((List.range 4).filter fun c => let n := (errs.filter fun e => e % 4 == c).length
            decide (1 ≤ n) && decide (n ≤ 15)).length
        ∧ (fec.link port).err.fecUncorr = satAdd x.err.fecUncorr
          ((List.range 4).filter fun c => decide (15 < (errs.filter fun e => e % 4 == c).length)).length)
      ∧ (x.hears = true → (rx.crcOk = false ∨ rx.ack = none ∧ rx.linkCell = none) → ∀ count,
          Completes (.idle port rx) s (· = fec) ∧ Completes (.nak port rx) s (· = fec) ∧ Completes (.ident port rx) s (· = fec)
          ∧ Completes (.laneSwap port rx count) s (· = fec) ∧ Completes (.swapAck port rx) s (· = fec) ∧ Completes (.down port rx) s (· = fec))
      ∧ (hear → Completes (.idle port rx) s fun t => t = fec ∧ only t ∧ (t.link port).buffer = x.buffer)
      ∧ (∀ before c rest, x.hears = true → rx.crcOk = true → rx.ack = some c.lseq → rx.linkCell = some .idle → x.buffer = before ++ c :: rest →
          (∀ b ∈ before, b.lseq ≠ c.lseq) → Completes (.idle port rx) s fun t => ∃ v, only v ∧ t = v.pumpAll ∧ (v.link port).buffer = rest
            ∧ (v.link port).replaysNow = 0 ∧ (v.link port).retry.occupancy = BitVec.ofNat 11 rest.length)
      ∧ (∀ lseq before c rest, hear → rx.linkCell = some (.nak lseq) → x.buffer = before ++ c :: rest → c.lseq = lseq - 1 →
          (∀ b ∈ before, b.lseq ≠ c.lseq) → rest ≠ [] → Completes (.nak port rx) s fun t => only t ∧ (t.link port).buffer = rest
            ∧ puts (rest.map fun e => .cell e.lseq e.cell) t ∧ (t.link port).retry.replays = satInc x.retry.replays)
      ∧ (x.status.state = 3 → x.buffer ≠ [] → Completes (.replayTimeout port) s fun t => only t ∧ (t.link port).buffer = x.buffer
          ∧ puts (x.buffer.map fun e => .cell e.lseq e.cell) t ∧ (t.link port).replaysNow = x.replaysNow + 1)
      ∧ (x.status.state = 3 → 0 < x.toAck → Completes (.ackTimer port) s fun t => only t ∧ (t.link port).toAck = 0 ∧ puts [.link .idle] t)
      ∧ (∀ p, inOrder → heads → cs.length = count + 1 → Pkt.ofCells (hasClosure port) cs = some p →
          Completes (.cellReceive port rx) s fun t => ∃ v, accepted v ∧ (v.link port).partialRx = []
            ∧ (v.link port).delivered = some rx.lseq ∧ t = v.receivePkt port p)
      ∧ (inOrder → heads → cs.length = count + 1 → Pkt.ofCells (hasClosure port) cs = none →
          Completes (.cellReceive port rx) s fun t => accepted t ∧ (t.link port).partialRx = []
            ∧ t.fab.drop.badHeader = satInc s.fab.drop.badHeader
            ∧ ∀ h, cs.head? = some h → ¬(h.header.extractLsb' 16 2 = 3 ∧ h.header.extractLsb' 25 3 = 0) →
              let i : Fin 8 := toFin 8 (4 * (h.header.getLsbD 18).toNat + (h.header.extractLsb' 16 2).toNat)
              t.fab.counts[i].out = s.fab.counts[i].out + 1)
      ∧ (inOrder → heads → cs.length < count + 1 → Completes (.cellReceive port rx) s fun t => accepted t
            ∧ (t.link port).partialRx = cs ∧ (t.link port).delivered = x.delivered)
      ∧ (numbered → rx.crcOk = true → rx.ack = none → rx.lseq ≠ x.expectLseq → Completes (.cellReceive port rx) s refused)
      ∧ (numbered → rx.crcOk = false → Completes (.cellReceive port rx) s fun t => refused t
          ∧ (t.link port).err.crcFail = satInc x.err.crcFail)
      ∧ (hear → rx.linkCell = some (.ident id) → (x.ident = some id → Completes (.ident port rx) s (· = fec))
          ∧ (x.ident ≠ some id → x.status.state = 3 → Completes (.ident port rx) s fun t => t = fec.failPort port 0)
          ∧ (x.ident ≠ some id → x.status.state ≠ 3 → s.fwLive = false → Completes (.ident port rx) s (· = fec))
          ∧ (x.ident ≠ some id → x.status.state ≠ 3 → s.fwLive = true → Completes (.ident port rx) s fun t => (t.link port).ident = some id
              ∧ (t.link port).peer = peerOf id ∧ record t ∧ match s.checkIdent port id with
                | .up v => only t ∧ (t.link port).status.state = 3 ∧ (t.link port).status.version = v ∧ (t.link port).released = false
                  ∧ ∀ i, i < 12 → (Table.get {} t.fab.credits (poolKey port (i / 4) (i % 4))).known = false
                    ∧ Table.get 0 t.fab.freed (poolKey port (i / 4) (i % 4)) = 0
                | .wait => only t ∧ (t.link port).status.state = 2
                | .held code => (t.link port).status.state = 5 ∧ (t.link port).status.downCode = code ∧ t.fab.lastDown = code))
      ∧ (x.hears = true → x.status.state ≠ 3 → Completes (.identSend port) s fun t => only t ∧ puts [.link (.ident (s.ownIdent port))] t)

/-- R249, R253 to R255, R263, R265: a port trains, is accepted with or without a spare lane or goes DOWN, falls back to full training,
replaces a failing receive lane by its spare, and fails. -/
def Obligations.LinksTrainSpareLanesAndFail : Prop :=
  ∀ (port : Fin 20) (rx : LinkRx) (lane : Fin 5) (count : BitVec 32) (measured : Nat) (errs : List Nat) (settings : BitVec 640)
      (s : State),
    let x := s.link port
    let fec := s.updLink port fun x => x.countFec s.time rx
    let only : State → Prop := fun t => t = { s with fab := t.fab } ∧ ∀ n, n ≠ port → t.link n = s.link n
    let puts : List Wire → State → Prop := fun ws t => t.fab.wire = s.fab.wire ++ ws.map fun w => (port, w.bits x.lastRx)
    let stored := if x.fullTrain then none else TrainRec.ofBits x.record
    let trains : State → Prop := fun t => only t ∧ (t.link port).status.state = 1 ∧ (t.link port).accepted = false
      ∧ (t.link port).status.savedStart = stored.isSome ∧ (t.link port).ident = none ∧ (t.link port).released = false
      ∧ (t.link port).ctrl = x.ctrl ∧ (t.link port).fullTrain = false ∧ t.fab.wire = s.fab.wire
      ∧ (t.link port).status.rxRetired = (match stored with
        | some r => if r.rxSpare = 7 then x.keptRx else 7
        | none => 7)
    let fails : State → State → Prop := fun v t => t = v.failPort port 0 ∧ (t.link port).status.state = 4
      ∧ (t.link port).status.downCode = 0x0303 ∧ (t.link port).status.downs = satInc x.status.downs ∧ t.fab.lastDown = 0x0303
      ∧ puts [.link (.down 0)] t
    let hear : LinkCell → Prop := fun c => x.hears = true ∧ rx.crcOk = true ∧ rx.ack = none ∧ rx.linkCell = some c
    let failing := failingLanes measured errs
    let bad := if x.status.rxRetired = 7 then failing else setBit failing x.status.rxRetired.toNat true
    let testing : Prop := x.status.state = 1 ∧ x.accepted = false ∧ (∀ w, x.hand ≠ .waiting w) ∧ s.fwLive = true ∧ s.clocks.clk.refRack = true
    (∀ i : Fin 5, failing.getLsbD i.val = decide (measured < errs.getD i.val 0 * 100000))
      ∧ (s.fwLive = true → x.ctrl.enable = true → s.clocks.clk.refRack = true →
          ((x.status.state = 0 ∨ x.status.state = 4) → Completes (.portTrain port) s trains)
          ∧ (x.status.state = 4 → Completes (.portRetrainTimer port) s trains))
      ∧ (testing → popCount bad ≤ 1 → Completes (.acceptanceTest port measured errs settings) s fun t => only t
          ∧ (t.link port).accepted = true ∧ (t.link port).buffer = [] ∧ (t.link port).retry.nextLseq = 0 ∧ (t.link port).expectLseq = 0
          ∧ (t.link port).settings = settings ∧ (popCount bad = 0 → (t.link port).status.rxRetired = 7 ∧ (t.link port).status.rxSpare = true)
          ∧ ∀ i : Fin 5, bad.getLsbD i.val = true → (t.link port).status.rxRetired = BitVec.ofNat 3 i.val
            ∧ (t.link port).status.rxSpare = false)
      ∧ (testing → 2 ≤ popCount bad →
          (x.status.savedStart = false → Completes (.acceptanceTest port measured errs settings) s fun t => only t
            ∧ (t.link port).status.state = 4 ∧ (t.link port).status.downCode = 0x0303 ∧ t.fab.lastDown = 0x0303)
          ∧ (x.status.savedStart = true → Completes (.acceptanceTest port measured errs settings) s (· = s)))
      ∧ (x.status.state = 1 → x.status.savedStart = true → x.accepted = false → s.fwLive = true → Completes (.trainingFallback port) s fun t =>
          only t ∧ t.link port = { x with
            status := { x.status with savedStart := false, rxRetired := 7, txRetired := 7 }, writeRec := true })
      ∧ (x.hears = true → x.lanes[lane].rxUse = 0 → x.rxSwap = none →
          (x.status.rxSpare = true → Completes (.laneFailing port lane true) s fun t => only t ∧ (t.link port).rxSwap = some (lane, none)
              ∧ (t.link port).lanes[lane].rxLock = false ∧ puts [.link (.laneSwap lane)] t)
            ∧ (x.status.rxSpare = false → Completes (.laneFailing port lane true) s fun t => ∃ v, only v ∧ fails v t))
      ∧ (hear (.laneSwap lane) → x.status.txSpare = true → x.lanes[lane].txUse = 0 → x.txSwap = none →
          Completes (.laneSwap port rx count) s fun t => only t ∧ (t.link port).txSwap = some (lane, count)
            ∧ puts [.link (.swapAck lane count)] t)
      ∧ (hear (.swapAck lane count) → x.rxSwap = some (lane, none) → Completes (.swapAck port rx) s fun t => only t
          ∧ (t.link port).rxSwap = some (lane, some count) ∧ t.fab.wire = s.fab.wire)
      ∧ (∀ l c, x.txSwap = some (l, c) → Completes (.laneSwapSwitch port true) s fun t => only t ∧ (t.link port).txSwap = none
          ∧ (t.link port).status.txRetired = BitVec.ofNat 3 l.val ∧ (t.link port).status.txSpare = false
          ∧ (t.link port).lanes[l].txUse = 2 ∧ TrainRec.ofBits (t.link port).record = some (t.link port).recordNow
          ∧ (t.link port).keptTx = BitVec.ofNat 3 l.val)
      ∧ (∀ l c, x.rxSwap = some (l, some c) → Completes (.laneSwapSwitch port false) s fun t => only t ∧ (t.link port).rxSwap = none
          ∧ (t.link port).status.rxRetired = BitVec.ofNat 3 l.val ∧ (t.link port).status.rxSpare = false
          ∧ (t.link port).lanes[l].rxUse = 2 ∧ TrainRec.ofBits (t.link port).record = some (t.link port).recordNow
          ∧ (t.link port).keptRx = BitVec.ofNat 3 l.val)
      ∧ (∀ l, x.rxSwap = some (l, none) → Completes (.swapTimeout port) s (fails s))
      ∧ (∀ r, hear (.down r) → Completes (.down port rx) s (fails fec))
      ∧ (∀ cause, x.hears = true → (cause = .replayLimit → max 1 s.fab.linkConfig.replayLimit.toNat ≤ x.replaysNow) →
          Completes (.portFail port cause) s (fails s))

/-- R272, R369 to R384: what the loss and the return of the rack reference do, the PLLs' choice, the bedrock trim, RACK_SYNC, entry to PS1,
PS2, PS3 and PS4, and waking from each. -/
def Obligations.ClocksAndPowerStates : Prop :=
  ∀ (p : PartNo) (src : WakeSrc) (code : BitVec 3) (s : State),
    let c := s.clocks
    let per := max 1 c.ctrl.periodMs.toNat * 1000000
    let target : Word := if c.ctrl.armLoad then c.load else BitVec.ofNat 64 ((s.time.toNat + per / 2) / per * per)
    let err : Int := (s.time.toNat : Int) - target.toNat
    let exact := c.ctrl.armLoad && !c.rt.locked
    (c.clk.refRack = true → Completes .rackRefLoss s fun t => t.clocks.clk.refRack = false ∧ t.clocks.rt.coarse = true ∧ t.cores = s.cores
        ∧ (∀ n, (s.link n).status.state = 3 → (t.link n).status.state = 4)
        ∧ ((∀ n, (s.link n).status.state ≠ 3) → t = { s with clocks := t.clocks }))
      ∧ (Completes .rackRefReturn s fun t => t.clocks.clk = { c.clk with refRack := true } ∧ t.clocks.rt = { c.rt with coarse := false }
          ∧ t = { s with clocks := t.clocks, fab := t.fab }
          ∧ (c.clk.refRack = true ∨ s.fwLive = false → t.fab = s.fab)
          ∧ (c.clk.refRack = false → s.fwLive = true → s.boot.status.ready = true → c.pkg = .run → ∀ n,
              if (s.link n).ctrl.enable = true ∧ (s.link n).status.state = 4 then (t.link n).status.state = 1 else t.link n = s.link n))
      ∧ (s.fwLive = true → c.clk.cpLock = true → c.clk.refPresent = false → Completes .pllRefSwitch s fun t => t = { s with clocks := t.clocks }
          ∧ t.clocks.clk = { c.clk with pllRef := if c.clk.refRack then 0 else if c.clk.refPcieA then 1 else if c.clk.refPcieB then 2 else 3 })
      ∧ (c.clk.refRack = true → Completes .bedrockTrim s fun t => t = { s with clocks := { c with trimmed := true } })
      ∧ (c.clk.refRack = true → Completes .rackSync s fun t => t = { s with time := t.time, clocks := t.clocks }
          ∧ t.clocks.rt.pulses = c.rt.pulses + 1 ∧ t.clocks.ctrl.armLoad = false ∧ t.clocks.rt.lastErr = satInt 32 err
          ∧ t.clocks.rt.locked = (c.rt.locked || c.ctrl.armLoad) ∧ ((1000 < err ∨ err < -1000) → t.clocks.rt.slip = true)
          ∧ (exact = true ∨ err ≤ 0 → t.time = target ∧ t.clocks.absorb = 0)
          ∧ (exact = false → 0 < err → t.time = s.time ∧ t.clocks.absorb = err.toNat))
      ∧ (s.mayRest p = true → s.psOf p = 0 → c.psConfig.ps1IdleUs ≠ 0 → Completes (.ps1Entry p) s fun t => t = { s with clocks := t.clocks }
          ∧ t.psOf p = 1 ∧ ∀ q, q ≠ p → t.psOf q = s.psOf q)
      ∧ (s.mayRest p = true → s.psOf p < 2 → c.psConfig.ps2IdleMs ≠ 0 → Completes (.ps2Entry p) s fun t => t.psOf p = 2
          ∧ (t.part p).state = 4 ∧ (t.part p).hostQs = Vector.replicate 16 {} ∧ (∀ k q, t.qin p k q = {} ∧ t.qout p k q = {})
          ∧ (∀ r, r ≠ p → t.part r = s.part r ∧ t.psOf r = s.psOf r) ∧ t.cores = s.cores)
      ∧ (s.allResting = true → c.psConfig.ps3En = true → c.psConfig.ps3IdleMs ≠ 0 → Completes .ps3Entry s fun t => t.clocks.pkg = .ps3
          ∧ t.lands.coreEn = false ∧ t.lands.railEn = s.lands.railEn ∧ (∀ q k, t.core q k = {}) ∧ t.settings.cycles = s.power.cycles
          ∧ t.fab.routes = s.fab.routes ∧ t.fab.inject = [] ∧ t.hbm.data = s.hbm.data
          ∧ (∀ q, (t.part q).poisonLog = (s.part q).poisonLog ∧ (t.part q).sramCount = (s.part q).sramCount ∧ (t.part q).strata = (s.part q).strata)
          ∧ ∀ n, (s.link n).status.state = 3 → (n, (Wire.link (.down 2)).bits (s.link n).lastRx) ∈ t.fab.wire)
      ∧ (c.pkg = .ps3 → c.psConfig.ps4IdleS ≠ 0 → Completes .ps4Entry s fun t => t.clocks.pkg = .ps4 ∧ t.lands.railEn = false
          ∧ t.lands.coreEn = false ∧ t.lands.pwrGood = false ∧ (∀ q, (t.part q).strata = [] ∧ (t.part q).poisonLog = {} ∧ (t.part q).sramCount = {}) ∧ (t.hostPort false).up = false
          ∧ (t.hostPort true).up = false ∧ ∀ m : Fin 12, t.hbm.mcs[m].status.filled = false)
      ∧ (c.pkg = .run → s.fwLive = true → s.psOf p = 1 → Completes (.wake (.work p)) s fun t => t.psOf p = 0
          ∧ t = { s with clocks := t.clocks, power := { s.power with trim := none } })
      ∧ (c.pkg = .run → s.fwLive = true → s.psOf p = 2 → s.rcv.retentionLost.getLsbD p.val = false → Completes (.wake (.work p)) s fun t => t.psOf p = 0
          ∧ (t.part p).state = 2 ∧ (∀ k, t.core p k = {}) ∧ ∀ q, q ≠ p → t.part q = s.part q)
      ∧ ((∀ q, src ≠ .work q) → s.wakeCode src = some code → c.pkg = .ps3 → Completes (.wake src) s fun t => t.clocks.pkg = .waking false
          ∧ t.lands = { s.lands with coreEn := true, pwrGood := false } ∧ t.clocks.ps.wakeSrc = code ∧ t.clocks.ps.wakes = satInc c.ps.wakes
          ∧ t = { s with lands := t.lands, clocks := t.clocks })
      ∧ ((∀ q, src ≠ .work q) → s.wakeCode src = some code → c.pkg = .ps4 → Completes (.wake src) s fun t => t.clocks.pkg = .waking true
          ∧ t.lands = { s.lands with railEn := true, coreEn := false, pwrGood := false } ∧ t.clocks.ps.wakeSrc = code
          ∧ t = { s with lands := t.lands, clocks := t.clocks })

/-! ## Starts -/

/-- R385 to R397, R401, R453, R455, R456, R472 to R477, R481: power-up, the rails and PKG_RESET_N, the flash grant, and the end of each
stage with the next one's beginning; a package halts at S1 without an image, at S2 with bad fuses, at S3 after ten seconds. -/
def Obligations.StartsGoThroughTheirStages : Prop :=
  ∀ (wholeOnly asserted cpaOk fusesOk upA upB hot : Bool) (addr : BitVec 3) (lost saved failed : BitVec 12) (slotsOk : BitVec 2)
      (repaired : List (List Nat)) (slots : List (Nat × Nat)) (clusters : List Nat) (s : State),
    let r := s.bootRec
    let ends : Fin 10 → State → Prop := fun n t => t.boot.cairn[n].tEnd = s.time ∧ t.fuses = s.fuses ∧ t.boot.status.starts = s.boot.status.starts
    let runs : Nat → State → Prop := fun n t => t.boot.status.stage.toNat = n ∧ t.boot.status.outcome = 5
    let locked : State → Prop := fun t => t.clocks.clk.aclkLock = 15 ∧ t.clocks.clk.nclkLock = true ∧ t.clocks.clk.cpLock = true
    let halts : Fin 10 → Code → State → Prop := fun n st t => t.boot.status.halted = true ∧ t.boot.starting = false
      ∧ t.boot.cairn[n].outcome = 3 ∧ t.boot.cairn[n].status = st ∧ t.boot.status.lastStatus = st ∧ t.fuses = s.fuses
    let dark : State → Prop := fun t => t.fab.inject = [] ∧ t.fab.deliver = [] ∧ ∀ n,
      (t.link n).status.state = (if (s.link n).ctrl.enable then 4 else 0) ∧ (t.link n).record = (s.link n).record
    let image : Bool → Prop := fun b => slotsOk.getLsbD (slotIdx b).val = true ∧ s.slotFits b = true
    (s.lands.bedrockPg = false → Completes (.coldStart wholeOnly addr) s fun t => runs 0 t ∧ t.boot.status.starts = 1
        ∧ t.boot.config.wholeOnly = wholeOnly ∧ t.boot.config.strapAddr = addr ∧ t.mgmt.counters = s.settings.counters ∧ t.fuses = s.fuses
        ∧ t.lands = { s.lands with bedrockPg := true, railEn := true, coreEn := false, pwrGood := false } ∧ t.flash = s.flash)
      ∧ (s.lands.bedrockPg = true → s.lands.railEn = true → s.lands.pwrGood = false → s.lands.coreEn = false → s.boot.starting = true →
          Completes .pwrGood s fun t => t = { s with lands := { s.lands with coreEn := true } })
      ∧ (s.lands.bedrockPg = true → s.lands.railEn = true → s.lands.pwrGood = false → s.lands.coreEn = true → s.clocks.pkg = .run →
          (s.inStage 0 = true → s.lands.pkgResetN = true → s.power.status.tripped = false → Completes .pwrGood s fun t => runs 1 t
              ∧ t.lands.pwrGood = true ∧ t.lands.flashReqN = false ∧ t.boot.cairn[0].outcome = 1 ∧ ends 0 t)
            ∧ (s.inStage 0 = false → s.boot.startDue = false → Completes .pwrGood s fun t => t = { s with lands := { s.lands with pwrGood := true } }))
      ∧ (s.lands.bedrockPg = true → s.lands.railEn = true → s.lands.pwrGood = false → s.lands.coreEn = true → s.clocks.pkg = .waking false →
          Completes .pwrGood s fun t => locked t ∧ t.clocks.pkg = .run ∧ t.clocks.clk.onWake = false ∧ t.lands.pwrGood = true)
      ∧ (s.lands.bedrockPg = true → s.lands.railEn = true → s.lands.pwrGood = true → s.inStage 0 = false → s.power.status.tripped = false →
          (s.rcv.railLosses.filter (fun x => decide ((s.time - x).toNat < 600000000000))).length < 2 → Completes (.railLoss lost) s fun t =>
            t.lands.railEn = false ∧ t.lands.coreEn = false ∧ t.lands.pwrGood = false ∧ t.rcv.restartDue = true ∧ t.cores = []
              ∧ t.rcv.railLosses = s.rcv.railLosses.filter (fun x => decide ((s.time - x).toNat < 600000000000)) ++ [s.time]
              ∧ ∀ m : Fin 12, lost.getLsbD m.val = true → t.hbm.mcs[m].status.filled = false)
      ∧ (s.rcv.restartDue = true → s.lands.bedrockPg = true → Completes .railLossRestart s fun t => t = { s with
          lands := { s.lands with railEn := true, coreEn := false, pwrGood := false }, rcv := { s.rcv with restartDue := false } })
      ∧ (Completes .bedrockLoss s fun t => t.fuses = s.fuses ∧ t.flash = s.flash ∧ t.lands = { pkgResetN := s.lands.pkgResetN } ∧ t.boot = {}
          ∧ t.cores = [] ∧ t.sram = [] ∧ t.hbm = {} ∧ t.rcv = {} ∧ t.pending = s.pending ∧ ∀ n, (t.link n).record = (s.link n).record)
      ∧ (s.lands.bedrockPg = false → Completes (.pkgResetN asserted) s fun t => t = { s with lands := { s.lands with pkgResetN := !asserted } })
      ∧ (s.lands.bedrockPg = true → s.inStage 0 = false → s.rcv.restartDue = false → s.lands.pkgResetN = true →
          Completes (.pkgResetN true) s fun t => ∃ v : State, t = v.chipReset true none none ∧ v = { s with lands := v.lands, rcv := v.rcv, freeCtr := v.freeCtr }
            ∧ v.lands.pkgResetN = false ∧ v.rcv.status.lastLevel = 4)
      ∧ (s.lands.bedrockPg = true → s.boot.startDue = true → s.lands.pwrGood = true → s.lands.coreEn = true → s.power.status.tripped = false →
          Completes (.pkgResetN false) s fun t => runs 1 t ∧ t.lands.pkgResetN = true ∧ t.lands.flashReqN = false)
      ∧ (s.power.status.tripped = true → s.lands.coreEn = true → Completes .tripCoreEnRelease s fun t =>
          t = { s with lands := { s.lands with coreEn := false }, fab := t.fab } ∧ dark t)
      ∧ (s.lands.bedrockPg = true → s.lands.railEn = true → s.power.status.tripped = true → Completes (.railLoss lost) s fun t =>
          t.lands = { s.lands with pwrGood := false } ∧ t.cores = s.cores ∧ t.fuses = s.fuses ∧ dark t)
      ∧ (s.inStage 1 = true → s.lands.flashReqN = false → s.boot.granted = false → r.trial = false →
          (image r.active → Completes (.flashGnt slotsOk) s fun t => t.boot.booted = true ∧ t.boot.granted = true ∧ t.lands.flashGntN = false
              ∧ t.mgmt.fw.activeSlot = r.active ∧ t.fuses = s.fuses)
            ∧ (¬ image r.active → image (!r.active) → Completes (.flashGnt slotsOk) s fun t => t.boot.booted = true
              ∧ t.mgmt.fw.activeSlot = (!r.active))
            ∧ (¬ image r.active → ¬ image (!r.active) → Completes (.flashGnt slotsOk) s fun t => halts 1 0x0601 t ∧ t.lands.flashReqN = true))
      ∧ (s.inStage 1 = true → s.boot.granted = false → Completes .flashGrantTimeout s fun t => halts 1 0x0601 t ∧ t.lands.flashReqN = true)
      ∧ (s.inStage 1 = true → s.boot.booted = true → Completes (.stageEnd (.s1 cpaOk)) s fun t => runs 2 t ∧ ends 1 t
          ∧ t.lands.flashReqN = true ∧ t.rcv.cp.active = !cpaOk)
      ∧ (s.inStage 2 = true → (fusesOk = true → Completes (.stageEnd (.s2 fusesOk)) s fun t => runs 3 t ∧ ends 2 t
            ∧ t.boot.shadow = some s.fusesAtS2)
          ∧ (fusesOk = false → Completes (.stageEnd (.s2 fusesOk)) s fun t => halts 2 0x0203 t))
      ∧ (s.inStage 3 = true → s.boot.s3Since = none → Completes (.stageEnd (.s3 true false)) s fun t => runs 4 t ∧ ends 3 t ∧ locked t)
      ∧ (s.inStage 3 = true → s.boot.s3Since = none → Completes (.stageEnd (.s3 false hot)) s fun t => t = { s with boot := t.boot }
          ∧ t.boot.s3Since = some s.time)
      ∧ (s.inStage 3 = true → s.boot.s3Since.isSome = true → (Completes (.s3Retry true false) s fun t => runs 4 t ∧ ends 3 t ∧ locked t)
          ∧ (s.lasted s.boot.s3Since 10000000000 = true → Completes (.s3Retry false true) s fun t => halts 3 0x0501 t))
      ∧ (s.inStage 4 = true → s.boot.needFill &&& ~~~failed = 0 → Completes (.stageEnd (.s4 saved failed repaired)) s fun t => runs 5 t ∧ ends 4 t
          ∧ t.boot.cairn[4].status = (if failed = 0 then 0 else 0x0202)
          ∧ t.flash.defects = ((s.flash.defects.zipIdx.filter fun e => !(repairedRows s.flash.defects repaired).flatten.contains e.2).map (·.1))
          ∧ ∀ m : Fin 12, t.hbm.mcs[m].status.failed = failed.getLsbD m.val ∧ t.hbm.mcs[m].status.filled = !failed.getLsbD m.val)
      ∧ (s.inStage 5 = true → Completes (.stageEnd (.s5 slots clusters)) s fun t => ends 5 t ∧ t.sram = [] ∧ t.cores = []
          ∧ runs (if s.boot.status.startKind = 3 then 8 else 6) t)
      ∧ (s.inStage 6 = true → s.portsTried = true → Completes (.stageEnd .s6) s fun t => runs 7 t ∧ ends 6 t)
      ∧ (s.inStage 7 = true → Completes (.stageEnd (.s7 upA upB)) s fun t => runs 8 t ∧ ends 7 t ∧ (upA = true → (t.hostPort false).up = true)
          ∧ (upB = true → (t.hostPort true).up = true))
      ∧ (s.inStage 8 = true → (∀ p, (s.part p).genWait = false) → Completes (.stageEnd .s8) s fun t => runs 9 t ∧ ends 8 t
          ∧ ∀ p, s.partExists p = true → (t.part p).capacity.pendingGib = 0)
      ∧ (s.inStage 9 = true → Completes (.stageEnd .s9) s fun t => ends 9 t ∧ t.boot.status.ready = true ∧ t.boot.starting = false
          ∧ t.boot.status.stage = 9)

/-! ## Power and temperature -/

/-- R335 to R347, R351 to R354, R365: the estimate is formed and charged, K is corrected within its bounds, TARGET moves one step up at most,
a step changes voltage and frequency in its order, a VR that twice does not complete sets VR_FAULT, droops stretch, trims set
VMIN and the guard band, a stall holds the levels. -/
def Obligations.PowerControlLoopsStepsAndTrims : Prop :=
  ∀ (counts : Counts) (c : Fin 32) (s : State),
    let w := s.power
    let act := s.terms counts
    let power : State → Prop := fun t => t = { s with power := t.power }
    let up := w.status.step + 1
    let down := w.status.step - 1
    (s.clocks.clk.cpLock = true → s.host.service = 0 → s.clocks.pkg = .run → w.settings = [] → Completes (.powerEstimatePass counts) s fun t =>
        t = { s with power := t.power, clus := t.clus, parts := t.parts } ∧ t.power.act = act ∧ t.power.estCount = w.estCount + 1
          ∧ t.power.estimate.est.toNat = min 65535 (activityRaw act * w.estimate.k.toNat / 1024 / 1000000) ∧ t.power.stalled = false
          ∧ 1 ≤ t.power.status.lPower.toNat ∧ t.power.status.lPower.toNat ≤ 64 ∧ t.power.status.lPower.toNat ≤ w.status.lPower.toNat + 8
          ∧ ∀ p, (t.part p).energy.compute = (s.part p).energy.compute + (s.windowOf act p).1
            ∧ (t.part p).energy.memory = (s.part p).energy.memory + (s.windowOf act p).2.1
            ∧ (t.part p).energy.fabric = (s.part p).energy.fabric + (s.windowOf act p).2.2)
      ∧ (∀ core rails, s.pwrLive = true → w.rails = some rails → Completes (.calibrationPass (some core)) s fun t => power t
          ∧ t.power.estimate.measured.toNat = min 65535 (core + rails) ∧ 820 ≤ t.power.estimate.k.toNat ∧ t.power.estimate.k.toNat ≤ 1280
          ∧ (w.estSum = 0 → t.power.estimate.k.toNat = max 820 (min 1280 w.estimate.k.toNat))
          ∧ (0 < w.estSum → t.power.estimate.k.toNat = max 820 (min 1280
            ((7 * w.estimate.k.toNat + w.estimate.k.toNat * (core + rails) * 1000000 * w.estCount / w.estSum) / 8))) ∧ t.power.status.calibrating = true
          ∧ t.power.estSum = 0 ∧ t.power.estCount = 0)
      ∧ (s.pwrLive = true → Completes (.calibrationPass none) s fun t => t = { s with power := t.power, parts := t.parts }
          ∧ t.power.estimate = w.estimate ∧ t.power.status.calibrating = false
          ∧ ∀ p x j, (t.part p).stream = some x → x.job = some j → j.calibrated = false)
      ∧ (s.pwrLive = true → w.status.lPower = 1 → w.status.step = 0 → w.status.capUnreachable = false → ¬(w.estW ≤ w.pEffW) → w.capReport = none →
          Completes .capUnreachable s fun t => ∃ u, power u ∧ t = u.eventChip 0x0503 0 (w.pEff / 100 + 4096)
            ∧ u.power.status.capUnreachable = true ∧ u.power.capReport = some s.time)
      ∧ (s.pwrLive = true → Completes .slowLoop s fun t => power t ∧ t.power.status.step = w.status.step
          ∧ (w.status.tripped = true ∨ w.status.cool = true → t.power.status.target = 0)
          ∧ (w.config.fixedEn = false → t.power.status.target.toNat ≤ w.status.step.toNat + 1
            ∧ t.power.status.target.toNat ≤ w.config.maxStep.toNat))
      ∧ (s.pwrLive = true → w.move = none → w.trim = none → w.status.target < w.status.step →
          (w.status.vrFault = false → Completes .vfStep s fun t => power t ∧ t.power.freq = w.freqOf down ∧ t.power.volt = w.vreq down
              ∧ t.power.move = some { up := false, goal := down } ∧ t.power.status.step = w.status.step ∧ t.power.status.vfBusy = true)
            ∧ (w.status.vrFault = true → Completes .vfStep s fun t => power t ∧ t.power.freq = w.freqOf down ∧ t.power.volt = w.volt
              ∧ t.power.status.step = down ∧ t.power.move = none))
      ∧ (s.pwrLive = true → w.move = none → w.trim = none → w.status.step < w.status.target → w.status.vrFault = false →
          w.status.step < w.config.maxStep → Completes .vfStep s fun t => power t ∧ t.power.freq = w.freq ∧ t.power.volt = w.vreq up
            ∧ t.power.move = some { up := true, goal := up } ∧ t.power.status.step = w.status.step ∧ t.power.status.vfBusy = true)
      ∧ (∀ m, w.move = some m → Completes .vrComplete s fun t => power t ∧ t.power.status.step = m.goal ∧ t.power.move = none
          ∧ t.power.freq = (if m.up then w.freqOf m.goal else w.freq) ∧ t.power.volt = w.volt)
      ∧ (∀ m, w.move = some m → (m.repeated = false → Completes .vrTimeout s fun t => t = { s with power := { w with move := some { m with repeated := true } } })
          ∧ (m.repeated = true → Completes .vrTimeout s fun t => power t ∧ t.power.status.vrFault = true ∧ t.power.move = none
            ∧ t.power.freq = w.freq ∧ t.power.status.vfBusy = false ∧ t.power.status.step = (if m.up then w.status.step else m.goal)))
      ∧ (w.stalled = false → s.clocks.pkg = .run → Completes .powerStall s fun t => t.power.stalled = true ∧ t.mgmt.noStall = 0
          ∧ t = { s with power := t.power, clus := t.clus, mgmt := { s.mgmt with noStall := 0 } })
      ∧ (s.clocks.pkg = .run → s.boot.maps[c].retired = false → Completes (.droopDetect c) s fun t => power t
          ∧ t.power.stretched.getLsbD c.val = true ∧ t.power.clu[c].droops = satInc w.clu[c].droops ∧ (s.time, c) ∈ t.power.droops)
      ∧ (Completes (.droopStretchEnd c) s fun t => power t ∧ t.power.stretched.getLsbD c.val = false ∧ t.power.droops = w.droops
          ∧ ∀ d : Fin 32, d ≠ c → t.power.stretched.getLsbD d.val = w.stretched.getLsbD d.val)
      ∧ (s.pwrLive = true → w.trim = none → s.idleWindow = true → w.status.hintHeld = false → w.move = none →
          (w.validated = false → 600 ≤ w.psSeconds → Completes .trimStart s fun t => t = { s with power := { w with trim := some true } })
            ∧ (w.validated = true → 24 ≤ w.guard.hoursSinceTrim → Completes .trimStart s fun t => t = { s with power := { w with trim := some false } }))
      ∧ (∀ validation, w.trim = some validation → (Completes (.trimEnd none) s fun t => t = { s with power := { w with trim := none } })
          ∧ ∀ ms : List (List Nat), Completes (.trimEnd (some ms)) s fun t => t = { s with power := t.power, flash := t.flash } ∧ t.power.trim = none
            ∧ t.power.validated = true ∧ t.power.guard.hoursSinceTrim = 0 ∧ t.settings.vmin = some t.power.vmin ∧ t.settings.hours = 0
            ∧ t.settings.guard = t.power.guard.guardMv
            ∧ (∀ (i m : Nat), i < 16 → (∃ row ∈ ms, row[i]? = some m) → (∀ row ∈ ms, ∀ k, row[i]? = some k → k ≤ m) →
              t.power.vmin[i]? = some (BitVec.ofNat 10 ((m + 4) / 5 * 5)))
            ∧ (validation = true → t.power.guard.guardMv.toNat = s.settings.guard.toNat)
            ∧ (validation = false → s.droopy = true → t.power.guard.guardMv.toNat = min 45 (w.guard.guardMv.toNat + 10)))
      ∧ (96 ≤ w.guard.hoursSinceTrim → Completes .guardBandRise s fun t => power t ∧ t.power.vmin = w.vmin
          ∧ t.power.guard = { w.guard with guardMv := BitVec.ofNat 6 (min 45 (w.guard.guardMv.toNat + 5)) })

/-- R341, R355 to R365, R383, R401, R429, R472, R481: readings, sensors that disagree, the thermal levels, stack bandwidth, the emergency floor and its end, the
model's second, thermal cycles, PWR_BRAKE, COOL_ALERT, which are recorded where the package cannot meet them yet, and the thermal and
electrical trips. R_TH and LOSS_RATE are free (log 8). -/
def Obligations.TemperaturesEmergenciesAndTrips : Prop :=
  ∀ (c : Fin 32) (n : Fin 8) (m : Fin 12) (f : Fin 4) (reading : Temp) (x y z : Nat) (i j : Int) (votes : BitVec 3) (s : State),
    let w := s.power
    let power : State → Prop := fun t => t = { s with power := t.power }
    let levels : State → Prop := fun t => t = { s with power := t.power, clus := t.clus }
    let floor : State → Prop := fun t => t.power.status.cool = true ∧ t.power.status.target = 0 ∧ (∀ k : Fin 12, t.power.bw[k] ≤ 160)
      ∧ ∀ d : Fin 32, s.boot.maps[d].retired = false → t.power.clu[d].level = 1
    let tripped : Nat → Nat → State → Prop := fun cause place t => t.power.status.tripped = true ∧ t.power.gated = true
      ∧ t.rcv.safe.tripCause = BitVec.ofNat 4 cause ∧ t.rcv.safe.tripWhere = BitVec.ofNat 4 place ∧ t.rcv.chip = none
      ∧ t.boot.starting = false ∧ t.lands = s.lands
      ∧ ∀ k : Fin 12, s.hbm.mcs[k].status.state = 2 → t.hbm.mcs[k].status.state = 3
    let pair : Fin 4 := toFin 4 (n.val / 2)
    let faulty : Nat → State → Prop := fun k t => ∃ u, power u ∧ t = u.eventChip 0x0506 0 (c.val * 8 + k)
      ∧ u.power.clu[c].faulty.getLsbD k = true ∧ u.power.thm.faulty = w.thm.faulty + 1
    let med := median2 (((List.range 8).filter fun k => k / 2 != pair.val).filterMap (w.credible c))
    let r := s.controlReading c
    let lv := w.clu[c].thermalLevel.toNat
    let temp := s.hbm.mcs[m].temp
    let hottest := ((s.workClusters.filter fun c => c.val / 8 == f.val).map s.controlReading).max?
    let tr := w.track[f]
    (s.clocks.pkg = .run → s.boot.maps[c].retired = false → Completes (.junctionSensorRead c n reading) s fun t => levels t
        ∧ Table.get none t.power.sensors (c.val * 8 + n.val) = reading
        ∧ (∀ k, k ≠ c.val * 8 + n.val → Table.get none t.power.sensors k = Table.get none w.sensors k)
        ∧ (w.stalled = true → reading = some i → 400 ≤ i → t.power.stallHot.getLsbD c.val = true ∧ t.power.clu[c].level = 1))
      ∧ (s.boot.maps[c].retired = false → w.credible c (2 * pair.val) = some i → w.credible c (2 * pair.val + 1) = some j → 32 < (i - j).natAbs →
          ∀ k, med = some k → ((2 * j - k).natAbs < (2 * i - k).natAbs → Completes (.sensorFaulty c pair) s (faulty (2 * pair.val)))
            ∧ ((2 * i - k).natAbs < (2 * j - k).natAbs → Completes (.sensorFaulty c pair) s (faulty (2 * pair.val + 1))))
      ∧ (s.pwrLive = true → s.boot.maps[c].retired = false → lv ≤ 64 → Completes .thermalPass s fun t => levels t ∧
          t.power.clu[c].thermalLevel.toNat = if 380 < r then max 1 (lv - (r - 380).toNat) else if r < 376 then min 64 (lv + 1) else lv)
      ∧ (s.hbm.mcs[m].status.state = 2 → temp.valid = true → w.status.cool = false → Completes (.stackBwPass m) s fun t =>
          t = { s with power := t.power, hbm := t.hbm } ∧ t.hbm.data = s.hbm.data ∧ t.power.bw[m] = (if temp.temp.toNat < 340 then 640
            else if temp.temp.toNat ≤ 380 then 640 - 8 * (temp.temp.toNat - 340) else max 80 (w.bw[m] / 2)))
      ∧ (s.stackHot m = true → w.hotStacks.getLsbD m.val = false → Completes (.coolantEmergency m) s fun t =>
          ∃ u : State, t = u.eventChip 0x0502 0 (256 + m.val) ∧ floor u ∧ u.power.hotStacks.getLsbD m.val = true)
      ∧ (s.pwrLive = true → Completes .headroomPass s fun t => t = { s with power := t.power, flash := t.flash, freeCtr := s.freeCtr + 2 }
          ∧ t.power.psSeconds = w.psSeconds + 1 ∧ t.settings.hours = t.power.guard.hoursSinceTrim
          ∧ (w.hourSeconds < 3599 → t.power.hourSeconds = w.hourSeconds + 1 ∧ t.power.guard = w.guard)
          ∧ (3599 ≤ w.hourSeconds → t.power.hourSeconds = 0 ∧ t.power.guard.hoursSinceTrim = satInc w.guard.hoursSinceTrim)
          ∧ (w.status.modelReady = false → w.psSeconds + 1 < 600 → t.power.headroom.rTh = w.headroom.rTh)
          ∧ t.power.headroom.sustainW.toNat = min 65535 ((380 - w.inlet) * 250000 / t.power.headroom.rTh.toNat))
      ∧ (s.pwrLive = true → hottest = some i → (tr.turn = none → Completes .thermalCycleSample s fun t => power t ∧ t.power.track[f].turn = some i)
          ∧ (tr.turn = some j → tr.rising = some true → i ≤ tr.ext - 20 → 80 ≤ (tr.ext - j).natAbs → tr.odd.getLsbD (min 4 (((tr.ext - j).natAbs - 80) / 40)) = true →
            Completes .thermalCycleSample s fun t => power t ∧ t.power.track[f].turn = some tr.ext ∧ t.power.track[f].rising = some false
              ∧ Table.get 0 t.power.cycles (f.val * 5 + min 4 (((tr.ext - j).natAbs - 80) / 40))
                = satInc (Table.get 0 w.cycles (f.val * 5 + min 4 (((tr.ext - j).natAbs - 80) / 40)))))
      ∧ (s.pwrLive = true → Completes .cycleCountSave s fun t => t = { s with flash := { s.flash with copies := t.flash.copies } }
          ∧ t.settings = { s.settings with cycles := w.cycles })
      ∧ (Completes .coolantTimeout s fun t => t = { s with power := { w with thm := { w.thm with coolantValid := false } } })
      ∧ (w.brakePin = false → s.pinsHeld = true → Completes (.pwrBrake true) s (· = { s with power := { w with brakePin := true } }))
      ∧ (w.coolPin = false → s.pinsHeld = true → Completes (.coolAlert true) s (· = { s with power := { w with coolPin := true } }))
      ∧ (w.brakePin = false → s.pinsHeld = false → w.brakeReport = none → Completes (.pwrBrake true) s fun t => ∃ u, levels u ∧ t = u.eventChip 0x0505 0 0
          ∧ u.power.brakePin = true ∧ u.power.status.brake = true ∧ u.power.brakeReport = some s.time
          ∧ ∀ d : Fin 32, s.boot.maps[d].retired = false → u.power.clu[d].level.toNat ≤ max 1 w.limits.brakeLevel.toNat)
      ∧ (w.brakePin = true → Completes (.pwrBrake false) s fun t => levels t ∧ t.power.brakePin = false ∧ t.power.status.brake = false)
      ∧ (w.coolPin = false → s.pinsHeld = false → Completes (.coolAlert true) s fun t => ∃ u : State, t = u.eventChip 0x0502 0 0 ∧ floor u ∧ u.power.coolPin = true)
      ∧ (w.coolPin = true → Completes (.coolAlert false) s fun t => t = { s with power := { w with coolPin := false } })
      ∧ (w.status.cool = true → w.coolPin = false → w.hotStacks = 0 → Completes .coolAlertRelease s fun t => t.power.status.cool = false
          ∧ t = { s with power := t.power, clus := t.clus, hbm := t.hbm } ∧ t.hbm.data = s.hbm.data)
      ∧ (w.status.tripped = false → 440 ≤ x → 440 ≤ y → Completes (.thermalTrip f (some x) (some y) (some z)) s fun t => tripped 0 f.val t
          ∧ t.power.thm.tripFields.getLsbD f.val = true)
      ∧ (w.status.tripped = false → 440 ≤ x → Completes (.thermalTrip f none (some x) (some y)) s fun t => tripped 0 f.val t)
      ∧ (x < 440 → y < 440 → Completes (.thermalTrip f (some x) (some y) (some z)) s fun t => power t
          ∧ t.power.safety[f].vote = (if z < 440 then 0 else 4) ∧ t.power.safety[f].chainFault = 0
          ∧ t.power.safety[f].chainA = BitVec.ofNat 10 x ∧ t.power.status = w.status)
      ∧ (w.status.tripped = false → twoVote votes = true → (Completes (.electricalTrip .overcurrent votes 0) s (tripped 1 0))
          ∧ (Completes (.electricalTrip .coreOv votes 0) s (tripped 2 0))
          ∧ ∀ k, Completes (.electricalTrip (.railOv k) votes 0) s (tripped 3 k.val))
      ∧ (twoVote votes = false → Completes (.electricalTrip .overcurrent votes 0) s fun t => t = { s with rcv := t.rcv }
          ∧ t.rcv.safe.ocVote = votes ∧ t.rcv.safe.tripCause = s.rcv.safe.tripCause)

/-! ## Recovery -/

/-- R30, R131, R404, R405, R408, R409, R411 to R413, R415 to R421, R431: what the watchdogs take, a cluster that does not answer, a level that
overruns, the course of a dump, the end of a partition reset, and bedrock's own SRAM errors. -/
def Obligations.WatchdogsResetsAndDumps : Prop :=
  ∀ (p : PartNo) (k : Fin 1024) (c : Fin 32) (answers : BitVec 32) (record : Nat) (s : State),
    let q := s.part p
    let live : Prop := s.fwLive = true ∧ s.partLive p = true
    let only : State → Prop := fun t => t = { s with parts := t.parts } ∧ ∀ r, r ≠ p → t.part r = s.part r
    (∀ x j, live → q.stream = some x → x.ending = none → j ∈ s.partCores p → (s.core p j).ctx.isSome = true → Completes (.contextWatchdog p) s fun t =>
        t = s.failStream p 0x0703)
      ∧ (live → q.reset = none → q.stream = none → (s.core p k).mms ≠ [] → (s.core p k).lost = false → s.coreEnabled p k = true →
          2 ≤ s.autoLevel → s.rcv.config.dumpEn = true → Completes (.engineWatchdog p k) s fun t =>
            t = { s with parts := t.parts, rcv := { s.rcv with status := t.rcv.status } } ∧ t.rcv.status.lastCode = 0x0704
              ∧ t.rcv.status.lastLevel = 2 ∧ (t.part p).reset = some { level := 2, trigger := 0x0704, core := BitVec.ofNat 10 k.val })
      ∧ (∀ (l x : Nat), live → q.clusters.Nodup → q.clusters[l]? = some x → x < 32 → Completes (.partitionPoll p answers) s fun t =>
          t = { s with rcv := { s.rcv with silent := t.rcv.silent } } ∧ t.rcv.silent.getLsbD x = !answers.getLsbD l)
      ∧ (live → s.rcv.silent.getLsbD c.val = true → c.val ∈ q.clusters → q.reset = none → q.state ≠ 0 → 3 ≤ s.autoLevel →
          s.rcv.config.dumpEn = true → s.boot.status.ready = true → Completes (.partitionWatchdog p c) s fun t =>
            (t.part p).reset = some { level := 3, trigger := 0x0701 } ∧ t.rcv.silent.getLsbD c.val = false
              ∧ t.boot.badClusters.getLsbD c.val = true ∧ t.rcv.status.lastLevel = 3 ∧ t.rcv.status.lastCode = 0x0701
              ∧ t.rcv.status.partResets = satInc s.rcv.status.partResets ∧ (t.part p).rcv.unitsLost = satInc q.rcv.unitsLost
              ∧ t.flash.defects.length = s.flash.defects.length + 1 ∧ t.cores = s.cores)
      ∧ (∀ r, s.fwLive = true → q.reset = some r → r.level = 3 → r.draining = true → Completes (.escalationOverrun p none) s fun t =>
          (t.part p).state = 0 ∧ (t.part p).held = true ∧ (t.part p).reset = none ∧ t.psOf p = 3 ∧ t.cores = s.cores)
      ∧ (∀ r, s.fwLive = true → q.reset = some r → r.level = 2 → r.draining = true → r.core.toNat = k.val →
          Completes (.escalationOverrun p (some k)) s fun t => ∃ u : State, t = u.level3 p r.trigger (k.val + p.val * 1024)
            ∧ (u.core p k).lost = true ∧ (u.core p k).aborting = false ∧ (u.part p).rcv.unitsLost = satInc q.rcv.unitsLost)
      ∧ (∀ x code, live → q.reset = none → (s.core p k).aborting = true → q.stream = some x → x.ending = some code →
          Completes (.escalationOverrun p (some k)) s fun t => t = s.level2 p k code)
      ∧ (∀ cause, s.fwLive = true → q.dump = none → s.dumpCause p = some cause → s.rcv.config.dumpEn = true →
          (∀ i, q.rcv.freeSlot = some i → i < 4 → Completes (.dump p) s fun t => ∃ (u : State) (d : Dump), only u
              ∧ (u.part p).dump = some d ∧ d.slot.toNat = i ∧ d.level = cause.1 ∧ d.trigger = cause.2.1 ∧ d.core = cause.2.2 ∧ d.start = s.time
              ∧ (u.part p).dumpHeld = true ∧ (u.part p).rcv.dumpSlots.getLsbD i = true
              ∧ t = u.stackWrite p (i * 0x4000000) (d.header 4096 0 0 0) false)
            ∧ (q.rcv.freeSlot = none → Completes (.dump p) s fun t => ∃ u : State, t = u.afterDump p
              ∧ (u.part p).rcv.skipped = satInc q.rcv.skipped ∧ u.freeCtr = s.freeCtr + 1 ∧ u.hbm = s.hbm))
      ∧ (∀ d, s.fwLive = true → q.dump = some d →
          (Completes (.debugReadTimeout p record) s fun t => only t ∧ (t.part p).dump = some { d with marks := d.marks ++ [(record, 1)] })
            ∧ (Completes (.dumpBudgetExpiry p record) s fun t => only t ∧ (t.part p).dump = some { d with marks := d.marks ++ [(record, 2)] })
            ∧ (Completes (.dumpEnd p) s fun t => ∃ u : State, t = u.afterDump p ∧ (u.part p).dump = none ∧ u.cores = s.cores
              ∧ u.hbm = (s.writeDump p d).1.hbm))
      ∧ (∀ r gen, s.fwLive = true → q.reset = some r → r.level = 3 → r.draining = true → r.both = false → s.drained p = true → q.genWait = false → q.dumpGenWait = false →
          s.host.layoutMove = none → s.mgmt.change = none → nextGen q.gen.gen q.gen.live = some gen → Completes (.meshDrainDone p) s fun t =>
            (t.part p).reset = none ∧ (t.part p).gen.gen = gen ∧ (t.part p).stream = none ∧ (t.part p).queue = []
              ∧ (∀ j, t.core p j = {}) ∧ ∀ o, o ≠ p → ∀ j, t.core o j = s.core o j)
      ∧ (∀ i : Fin 4096, s.lands.bedrockPg = true → (Completes (.bedrockSramError (.journal i)) s fun t => ∃ u : State, t = u.eventChip 0x0203 0 i.val
            ∧ u = { s with host := { s.host with journal := u.host.journal }, freeCtr := s.freeCtr + 1 }
            ∧ (i.val ≤ s.host.lastSeq.toNat → let seq := (Table.get {} u.host.journal i.val).seq
                seq ≤ s.host.lastSeq ∧ seq.toNat % 4096 = i.val ∧ s.host.lastSeq.toNat < seq.toNat + 4096)
            ∧ (Table.get {} u.host.journal i.val).state = 4 ∧ (Table.get {} u.host.journal i.val).result = 0x0203
            ∧ ∀ j, j ≠ i.val → Table.get {} u.host.journal j = Table.get {} s.host.journal j))
      ∧ (∀ o, s.lands.bedrockPg = true → (Completes (.bedrockSramError (.register o)) s fun t => t = s.eventChip 0x0203 0 (2 ^ 28 + o.toNat))
          ∧ (Completes (.bedrockSramError (.retention o)) s fun t =>
            t = ({ s with rcv := { s.rcv with retentionLost := s.rcv.retentionLost ||| s.atRest } }).eventChip 0x0203 0 (2 ^ 29 + o.toNat)))

/-- R193, R405, R413, R414, R422 to R430, R459, R460: a switch-over holds CP-A and the token, ends when CP-B pets the watchdog, and is
not possible without a tested CP-B; self-tests, the close of an activation's window, and the handback. -/
def Obligations.CommandProcessorsSwitchTestAndHandBack : Prop :=
  ∀ s : State,
    let cp := s.rcv.cp
    let gap : State → Prop := fun t => t.rcv.cp.token = 2 ∧ t.rcv.cp.cpaState = 1 ∧ t.rcv.cp.cpbState = 2
      ∧ t.rcv.cp.switchovers = satInc cp.switchovers ∧ t.host.service = 1 ∧ t.rcv.gapAt = some s.time ∧ t.power.stalled = true
      ∧ t.cores = s.cores ∧ t.parts = s.parts
    let cpOnly : State → Prop := fun t => t = { s with rcv := { s.rcv with cp := t.rcv.cp } }
    (s.cpOn = true → s.rcv.gapAt = none → s.maySwitch = true → s.mgmt.activation = none →
        Completes .cpWatchdog s gap ∧ Completes .cpUncorrected s gap)
      ∧ (s.cpOn = true → s.rcv.gapAt.isSome = true → Completes .cpWatchdog s fun t => t.rcv.cp.token = 2 ∧ t.rcv.cp.cpbState = 4
          ∧ t.rcv.gapAt = none ∧ t.host.service = 1 ∧ t.parts = s.parts)
      ∧ (s.cpOn = true → s.rcv.gapAt = none → s.maySwitch = false → cp.active = false → Completes .cpWatchdog s fun t => t.rcv.cp.token = 2
          ∧ t.rcv.cp.cpaState = 1 ∧ t.host.service = 1 ∧ ∃ u : State, t = u.eventChip 0x0701 0 (3 * 2 ^ 28))
      ∧ (∀ g, s.rcv.gapAt = some g → Completes .cpWdPet s fun t => ∃ u : State, t = ((u.resumeAll).tryChipReset).revertSwitched
          ∧ u.host.service = 0 ∧ u.rcv.gapAt = none ∧ u.rcv.cp.active = true ∧ u.rcv.cp.token = 1 ∧ u.rcv.cp.cpbState = 3
          ∧ u.rcv.cp.lastGapUs = satOf 12 ((s.time - g).toNat / 1000) ∧ u.time = s.time ∧ u.mgmt.trialClear = 0)
      ∧ (∀ a, s.rcv.gapAt = none → s.mgmt.activation = some a → s.host.service = 2 → Completes .cpWdPet s fun t => ∃ u : State,
          t = (u.resumeAll).tryChipReset ∧ u.host.service = 0 ∧ u.mgmt.activation = none ∧ u.mgmt.cpbSlot = a.slot ∧ u.mgmt.trialClear = 0
            ∧ (cp.active = false → u.rcv.cp.cpbState = 1))
      ∧ (s.rcv.gapAt = none → s.mgmt.activation = none → Completes .cpWdPet s fun t => t = s)
      ∧ (s.cpOn = true → s.fwLive = true → cp.active = false →
          (Completes (.cpbSelfTest true true) s fun t => t = { s with rcv := t.rcv, mgmt := { s.mgmt with trial := t.mgmt.trial } }
              ∧ t.rcv.cp = { cp with cpbState := 0, cpbHealthy := true } ∧ t.rcv.cpbPassAt = some s.time)
            ∧ (Completes (.cpbSelfTest false true) s fun t => ∃ u : State, u = { s with rcv := { s.rcv with cp := u.rcv.cp, cpbFailed := true } }
              ∧ u.rcv.cp = { cp with cpbState := 0, cpbHealthy := false }
              ∧ t = u.eventChip 0x0701 0 (3 * 2 ^ 28 + 1)))
      ∧ (s.cpOn = true → s.fwLive = true → cp.active = true → cp.cpaState = 1 → Completes (.cpaSelfTest true) s fun t => cpOnly t
          ∧ t.rcv.cp = { cp with cpaState := 4 })
      ∧ (s.cpOn = true → s.fwLive = true → cp.cpaState = 4 → (∀ p, (s.part p).reset = none) → s.host.layoutMove = none → s.rcv.chip = none →
          Completes .handback s fun t => cpOnly t ∧ t.rcv.cp.active = false ∧ t.rcv.cp.token = 0 ∧ t.rcv.cp.cpaState = 0
            ∧ t.rcv.cp.cpbState = 0)

/-! ## The management port -/

/-- R306, R333, R337, R360, R373, R384, R434, R437 to R444: the checks of a message in their order with their codes; HEARTBEAT, the missed
seconds and orphan mode, telemetry, caps, coolant, rails, settings, time, and the interfaces' own events. That a body's telemetry words stand
in the model's order is log 25's choice. -/
def Obligations.ManagementMessagesAreCheckedAndSetPower : Prop :=
  ∀ (h : MgmtHdr) (select : BitVec 3) (p : PartNo) (seq : BitVec 48) (mask : BitVec 4) (rack brake period : BitVec 16)
      (level pct stall : BitVec 7) (cap : BitVec 12) (temp : BitVec 10) (powers : List (BitVec 16)) (load : Word) (arm up : Bool)
      (fixedEn boostEn : Option Bool) (fixedStep : Option (BitVec 4)) (margin : Option (BitVec 5)) (droop : Option (BitVec 6)) (s : State),
    let u := s.takeCounter h
    let refused : Code → State → Prop := fun c t => t = { s with mgmt := t.mgmt } ∧ t.mgmt.status.lastReject = c
      ∧ t.mgmt.status.rejected = satInc s.mgmt.status.rejected ∧ t.mgmt.responses
        = s.mgmt.responses ++ [{ i3c := h.i3c, type := 0x8001, tag := h.tag, counter := h.counter, status := c }]
    let rackNeed : Need := { roles := roleRack }
    let tray : Need := { signed := false, tray := true }
    let life := lifeOk s.fuses.lifecycle 1 h.key
    let queue : PwrSetting → State → Nat → State → Prop := fun x v type t => (s.power.stalled = false → s.preS3 = false →
        t = (v.applySetting x).answer h type 0 [])
      ∧ (s.power.stalled = true → t = ({ v with power := { s.power with settings := s.power.settings ++ [x] } }).answer h type 0 [])
    (s.hears h = true → h.formOk = false → Completes (.heartbeat h) s (refused 0x0102))
      ∧ (s.hears h = true → h.formOk = true → h.destTag ≠ s.fuses.serialTag → Completes (.heartbeat h) s fun t => t = s)
      ∧ (s.hears h = true → h.formOk = true → h.destTag = s.fuses.serialTag → life = false → Completes (.heartbeat h) s (refused 0x0604))
      ∧ (s.hears h = true → h.formOk = true → h.destTag = s.fuses.serialTag → life = true → s.keyOk h 1 rackNeed = false →
          Completes (.heartbeat h) s (refused 0x0601))
      ∧ (s.hears h = true → h.formOk = true → h.destTag = s.fuses.serialTag → life = true → s.keyOk h 1 rackNeed = true → h.bodyOk = false →
          Completes (.heartbeat h) s fun t => refused 0x0102 t ∧ t.mgmt.counters[toFin 8 h.key.toNat] = h.counter)
      ∧ (s.admits h 1 rackNeed → s.mgmt.status.orphan = false → Completes (.heartbeat h) s fun t => t = { s with mgmt := t.mgmt }
          ∧ t.mgmt.status.hbMissed = 0 ∧ t.mgmt.counters[toFin 8 h.key.toNat] = h.counter
          ∧ ∀ k : Fin 8, k ≠ toFin 8 h.key.toNat → t.mgmt.counters[k] = s.mgmt.counters[k])
      ∧ (s.admits h 1 rackNeed → s.mgmt.status.orphan = true → Completes (.heartbeat h) s fun t => ∃ v : State,
          t = (v.orphanMode false).answer h 1 0 [] ∧ v = { u with mgmt := v.mgmt } ∧ v.mgmt.status.hbMissed = 0)
      ∧ (s.lands.bedrockPg = true → s.fuses.lifecycle = 2 → s.mgmt.status.rackKey = true →
          (satInc s.mgmt.status.hbMissed ≠ 10 ∨ s.mgmt.status.orphan = true → Completes .heartbeatMiss s fun t => t = { s with mgmt := t.mgmt }
              ∧ t.mgmt.status = { s.mgmt.status with hbMissed := satInc s.mgmt.status.hbMissed })
            ∧ (satInc s.mgmt.status.hbMissed = 10 → s.mgmt.status.orphan = false → Completes .heartbeatMiss s fun t =>
              t.mgmt.status.orphan = true ∧ t.mgmt.status.orphanEntries = satInc s.mgmt.status.orphanEntries ∧ t.mgmt.status.hbMissed = 10))
      ∧ (s.lands.bedrockPg = true → Completes .counterSave s fun t =>
          t = { s with flash := { s.flash with copies := t.flash.copies } } ∧ t.settings = { s.settings with counters := s.mgmt.counters }
          ∧ (s.mgmt.format, t.settings) ∈ t.flash.copies ∧ (s.bootRec.trial = true → (s.bootRec.oldFormat, t.settings) ∈ t.flash.copies))
      ∧ (s.admits h 2 { roles := 7 } →
          (select = 1 → Completes (.telemetryFetch h select p seq) s fun t => t = u.answer h 2 0 s.telemetryCairn)
            ∧ (select = 3 → Completes (.telemetryFetch h select p seq) s fun t => t = u.answer h 2 0
              (((s.part p).records.filter fun r => decide (seq ≤ r.seq)).map fun r => wordsOf r.bytes).flatten)
            ∧ (select = 4 → s.clocks.pkg = .run → s.fab.snapshotAt = none → Completes (.telemetryFetch h select p seq) s fun t =>
              t = { u with mgmt := t.mgmt, fab := { s.fab with snapshot := s.fab.hist, hist := [], snapshotAt := some s.time } }))
      ∧ (s.admits h 0x11 rackNeed → Completes (.capSet h mask rack brake level pct) s
          (queue (.caps (if mask.getLsbD 0 then some (capOf rack) else none) none (if mask.getLsbD 1 then some (capOf brake) else none)
            (if mask.getLsbD 2 then some level else none) (if mask.getLsbD 3 then some pct else none)) u 0x11))
      ∧ (s.admits h 0x12 tray → Completes (.trayCap h cap) s (queue (.caps none (some cap) none none none) u 0x12))
      ∧ (s.admits h 0x13 tray → Completes (.coolant h temp) s fun t => t = { s with power := t.power, mgmt := t.mgmt }
          ∧ t.power = { s.power with thm := { s.power.thm with coolant := temp, coolantValid := true } })
      ∧ (s.admits h 0x14 tray → powers.length = 8 → Completes (.rails h powers) s fun t => t = { s with power := t.power, mgmt := t.mgmt }
          ∧ t.power = { s.power with rails := some (sumNat (powers.map BitVec.toNat)) })
      ∧ (s.admits h 0x15 rackNeed → Completes (.powerConfig h fixedEn fixedStep boostEn margin droop (some stall)) s
          (queue (.config fixedEn fixedStep boostEn margin droop (some stall)) u 0x15))
      ∧ (s.admits h 0x16 rackNeed → Completes (.timeSet h load period arm) s fun t => t = { s with clocks := t.clocks, mgmt := t.mgmt }
          ∧ t.clocks = { s.clocks with load := load, ctrl := { periodMs := period, armLoad := arm } })
      ∧ (Completes (.mgmtEthernetLink up) s fun t => t = { s with mgmt := { s.mgmt with status := { s.mgmt.status with ethUp := up } } })
      ∧ (Completes (.i3cDynamicAddress level) s fun t => t = { s with mgmt := t.mgmt } ∧ t.mgmt.dynAddr = level
          ∧ t.mgmt.status = { s.mgmt.status with i3cDyn := true })

/-- R187, R188, R247, R253, R255, R270, R271, R285, R307, R309, R375, R397, R407, R437, R440, R441: messages that set coordinates, owners,
states, routes, rings and ports, reset the package, and probe another. That a message waits while firmware does not run is log 67's
choice. -/
def Obligations.ManagementMessagesSetTheFabricAndTheChip : Prop :=
  ∀ (h : MgmtHdr) (device : DeviceNo) (p : PartNo) (owner bank full : Bool) (kind : BitVec 2) (first count : BitVec 16)
      (entries : List Byte) (ring : BitVec 32) (n : Fin 20) (role : BitVec 5) (expect : Word) (s : State),
    let u := s.takeCounter h
    let rackNeed : Need := { roles := roleRack }
    let fabNeed : Need := { roles := roleFabric }
    let port := BitVec.ofNat 5 n.val
    let fabric : State → Prop := fun t => t = { s with fab := t.fab, mgmt := t.mgmt }
    (s.fwFree = true → s.admits h 0x10 { roles := roleRack, tray := true } →
        (s.device = some device → Completes (.coordSet h device) s fun t => t = u.answer h 0x10 0 [])
          ∧ (s.device ≠ some device → s.anyStream = true → Completes (.coordSet h device) s fun t => t.device = s.device ∧ t = u.reject h 0x10 0x0103)
          ∧ (s.device ≠ some device → s.anyStream = false → Completes (.coordSet h device) s fun t => t = (u.setDevice device).answer h 0x10 0 []
            ∧ t.device = some device))
      ∧ (s.fwFree = true → s.admits h 0x17 rackNeed →
          (s.partExists p = true → Completes (.ownerSet h p owner false) s fun t =>
              t = (u.resetPart p { level := 3, trigger := 0x0705, owner := some owner } none).answer h 0x17 0 [])
            ∧ ((∀ mb ∈ chipMailboxes, (s.mailbox mb).status.state = 0) → Completes (.ownerSet h p owner true) s fun t =>
              t = { s with host := { s.host with chipOwner := owner }, mgmt := t.mgmt }))
      ∧ (s.admits h 0x18 { roles := roleRack ||| roleFabric } → Completes (.stateSet h owner false) s fun t => t = { s with clocks := t.clocks, mgmt := t.mgmt }
          ∧ t.clocks = { s.clocks with psConfig := { s.clocks.psConfig with ps3En := owner } })
      ∧ (s.admits h 0x18 rackNeed → s.clocks.pkg = .ps3 → Completes (.stateSet h owner true) s fun t => t.clocks.pkg = .ps4
          ∧ t.clocks.psConfig.ps3En = owner ∧ t.lands.railEn = false)
      ∧ (s.admits h 0x19 rackNeed → Completes (.reset h 2) s fun t => t.rcv.powerCycle = true ∧ t.rcv.status.lastLevel = 5
          ∧ t = { s with rcv := t.rcv, mgmt := t.mgmt, freeCtr := t.freeCtr })
      ∧ (s.admits h 0x19 rackNeed → kind = 0 ∨ kind = 1 → s.rcv.chip = none → Completes (.reset h kind) s fun t =>
          t = u.askChipReset (kind == 1) none (some (h.i3c, h.tag, h.counter)))
      ∧ (s.admits h 0x21 fabNeed → s.fab.epoch.settling = false → Completes (.flip h) s fun t => fabric t
          ∧ t.fab.epoch = { current := !s.fab.epoch.current, settling := true, flips := s.fab.epoch.flips + 1 }
          ∧ t.fab.routes = s.fab.routes ∧ ∀ k, (t.link k).released = ((s.link k).released || (s.link k).status.state == 3))
      ∧ (s.admits h 0x21 fabNeed → Completes (.settle h) s fun t => fabric t
          ∧ t.fab = { s.fab with epoch := { s.fab.epoch with settling := false } })
      ∧ (s.admits h 0x20 fabNeed → 1 ≤ count.toNat → count.toNat ≤ 480 → first.toNat + count.toNat ≤ 16384 → entries.length = 2 * count.toNat →
          s.fab.epoch.settling = false →
          (bank = !s.fab.epoch.current → Completes (.routeWrite h bank first count entries) s fun t => fabric t
              ∧ (∀ (i : Nat) (b : Byte), i < count.toNat → entries[2 * i]? = some b →
                t.route bank (BitVec.ofNat 14 (first.toNat + i)) = BitVec.ofNat 5 b.toNat)
              ∧ (∀ d : DeviceNo, d.toNat < first.toNat ∨ first.toNat + count.toNat ≤ d.toNat → t.route bank d = s.route bank d)
              ∧ ∀ d, t.route (!bank) d = s.route (!bank) d)
            ∧ (bank = s.fab.epoch.current → Completes (.routeWrite h bank first count entries) s fun t => t = u.reject h 0x20 0x0103))
      ∧ (s.admits h 0x22 fabNeed → Completes (.fabricConfig h (some ring) (some ring) (some ring) (some ring)) s fun t => fabric t
          ∧ t.fab.arb = FabArb.ofWord ring ∧ t.fab.congCfg = FabCongCfg.ofWord ring ∧ t.fab.linkConfig = FabLinkConfig.ofWord ring
          ∧ (s.fab.epoch.settling = true → t.fab.ring = s.fab.ring)
          ∧ (s.fab.epoch.settling = false → s.fab.epoch.current = false → t.fab.ring = { s.fab.ring with
            outClosed1 := (FabRing.ofWord ring).outClosed1, inClosed1 := (FabRing.ofWord ring).inClosed1 }))
      ∧ (s.fwFree = true → s.admits h 0x23 fabNeed →
          (Completes (.portSet h port expect full) s fun t => ∃ v : State, t = (v.recheckPorts).answer h 0x23 0 []
              ∧ v = u.setLink n { s.link n with expect := FpExpect.ofMsg expect, fullTrain := (s.link n).fullTrain || full })
            ∧ ((n = 18 ∨ n = 19) → 8 ≤ role.toNat → role.toNat ≤ 17 → s.standInOk n role.toNat = true → (s.link n).status.state ≠ 3 →
              s.clocks.clk.refRack = true →
              Completes (.standIn h port role) s fun t => fabric t ∧ (t.link n).ctrl.standIn = role ∧ (t.link n).ctrl.enable = true
                ∧ (t.link n).status.role = role ∧ (t.link n).status.state = 1)
            ∧ ((n = 18 ∨ n = 19) → Completes (.standIn h port 0x1F) s fun t =>
              (if (s.link n).status.state = 0 ∨ (s.link n).status.state = 4 then fabric t
                else ∃ v : State, t = v.answer h 0x23 0 [] ∧ v = { u.failPort n 0 with fab := v.fab })
              ∧ (t.link n).ctrl.standIn = 0x1F ∧ (t.link n).ctrl.enable = false ∧ (t.link n).status.state = 0 ∧ (t.link n).status.role = port)
            ∧ ((s.link n).ctrl.enable = true → (s.link n).status.state ≠ 3 → s.clocks.clk.refRack = true → Completes (.retrain h port full) s fun t => fabric t
              ∧ (t.link n).status.state = 1 ∧ (t.link n).status.savedStart
                = ((TrainRec.ofBits (s.link n).record).isSome && !((s.link n).fullTrain || full)) ∧ ∀ m, m ≠ n → t.link m = s.link m)
            ∧ ((s.link n).ctrl.enable = false → Completes (.retrain h port full) s fun t => t = u.reject h 0x23 0x0103))
      ∧ (s.fwFree = false → (s.admits h 0x10 { roles := roleRack, tray := true } → Completes (.coordSet h device) s (· = u.holdMsg (.coordSet h device)))
          ∧ (s.admits h 0x17 rackNeed → s.partExists p = true → Completes (.ownerSet h p owner false) s (· = u.holdMsg (.ownerSet h p owner false)))
          ∧ (s.admits h 0x23 fabNeed → Completes (.portSet h port expect full) s (· = u.holdMsg (.portSet h port expect full))
            ∧ Completes (.retrain h port full) s (· = u.holdMsg (.retrain h port full))))
      ∧ (s.admits h 0x24 fabNeed → s.fab.probeSent = none → Completes (.probeMessage h device) s fun t => fabric t
          ∧ t.fab.probeSent = some s.time ∧ t.mgmt.probe = some (h.i3c, h.tag, h.counter) ∧ t.mgmt.responses = s.mgmt.responses
          ∧ t.carries (probePkt s device s.time 0 0 false))

/-- R390, R434 to R436, R439, R440, R446 to R464: images and their checks, activation, licences, keys, the life cycle, the defect log, debug,
SPDM, JTAG, and a trial's seconds and confirmation. Whether a signature or hash holds is the command's operand (log 9); SPDM's error codes
and order are log 28's. -/
def Obligations.ImagesKeysLifeCycleAndTrials : Prop :=
  ∀ (h : MgmtHdr) (header : BitVec 2048) (offset : BitVec 32) (bytes : List Byte) (slot sigOk hashOk ownerSig : Bool) (target roles : BitVec 3)
      (n : BitVec 2) (key : BitVec 256) (entry : BitVec 96) (path : SpdmPath) (req : SpdmReq) (op : JtagOp) (s : State),
    let u := s.takeCounter h
    let need : Need := { roles := roleService }
    let b := !s.mgmt.fw.activeSlot
    let store : State → Prop := fun t => t = { s with flash := t.flash, mgmt := t.mgmt } ∧ t.slot (!b) = s.slot (!b)
      ∧ t.flash.keys = s.flash.keys ∧ t.flash.licences = s.flash.licences
    let named : Prop := s.hears h = true ∧ h.formOk = true ∧ h.destTag = s.fuses.serialTag
    let open_ : Prop := h.i3c = false ∧ s.mgmt.transfer.isSome = true
    let refused : Code → State → Prop := fun c t => t.mgmt.status.lastReject = c ∧ t.mgmt.status.rejected = satInc s.mgmt.status.rejected
      ∧ t = { s with mgmt := t.mgmt }
    let i := ({ header := header } : Image)
    let fw := s.mgmt.fw
    let boots : State → BootRec → Prop := fun t r => some r ∈ t.flash.boot.toList
    (s.fwFree = true → s.admits h 0x30 need →
        (h.i3c = false → i.formOk = true → s.mgmt.trial.trial = false → Completes (.imageBegin h header) s fun t => store t
            ∧ t.slot b = some i ∧ t.slotValid b = false ∧ t.mgmt.transfer = some { key := h.key, i3c := false } ∧ t.mgmt.staged ≠ some b)
          ∧ (h.i3c = false → i.formOk = false → Completes (.imageBegin h header) s (refused 0x0102))
          ∧ (h.i3c = false → i.formOk = true → s.mgmt.trial.trial = true → Completes (.imageBegin h header) s (refused 0x0103))
          ∧ (h.i3c = true → Completes (.imageBegin h header) s fun t => t = { s with mgmt := t.mgmt, freeCtr := s.freeCtr + 1 }
            ∧ t.mgmt.status.rejected = satInc s.mgmt.status.rejected ∧ t.mgmt.transfer = s.mgmt.transfer))
      ∧ (∀ x, s.fwFree = true → named → lifeOk s.fuses.lifecycle 0x31 h.key = true → s.dataOk h = true → h.bodyOk = true → bytes.length ≤ 1016 → open_ →
          s.slot b = some x → (offset.toNat + bytes.length ≤ x.bodyLen → Completes (.imageData h offset bytes) s fun t => store t
              ∧ t.slot b = some { x with body := Mem.write x.body offset.toNat bytes, got := x.got ++ [(offset.toNat, bytes.length)] })
            ∧ (x.bodyLen < offset.toNat + bytes.length → Completes (.imageData h offset bytes) s (refused 0x0102)))
      ∧ (∀ x, s.fwFree = true → named → lifeOk s.fuses.lifecycle 0x32 h.key = true → s.transferLive = true → s.keyOk h 0x32 need = true → h.bodyOk = true → open_ →
          s.slot b = some x →
          (sigOk = true → hashOk = true → s.fuses.svn.toNat ≤ x.svn → s.limitsOk x = true → x.complete = true →
              Completes (.imageEnd h sigOk hashOk) s fun t => store t ∧ t.slot b = some x ∧ t.slotValid b = true ∧ t.mgmt.staged = some b
                ∧ t.mgmt.transfer = none)
            ∧ (sigOk = false ∨ hashOk = false → Completes (.imageEnd h sigOk hashOk) s fun t => refused 0x0601 t ∧ t.mgmt.transfer = none
              ∧ t.mgmt.fw = fw)
            ∧ (sigOk = true → hashOk = true → x.svn < s.fuses.svn.toNat → Completes (.imageEnd h sigOk hashOk) s fun t => refused 0x0603 t
              ∧ t.mgmt.transfer = none ∧ t.mgmt.fw = fw))
      ∧ ((s.fwFree = true ∨ s.host.service ≠ 0 ∨ s.boot.starting = true) → s.admits h 0x33 need →
          (s.activateCheck slot = 0 → Completes (.activate h slot) s fun t => t = u.beginActivation
              { slot := slot, mb := none, msg := some (h.i3c, h.tag, h.counter), revert := none, start := s.time })
            ∧ (s.activateCheck slot ≠ 0 → Completes (.activate h slot) s (refused (s.activateCheck slot))))
      ∧ (s.fwFree = true → s.admits h 0x34 need → Completes (.licence h bytes sigOk) s fun t =>
          t = (u.installLicence bytes sigOk).1.settle h 0x34 (u.installLicence bytes sigOk).2)
      ∧ (∀ who, (s.fwFree = true ∨ s.boot.starting = true) → named → changeBy s.fuses.lifecycle target = some who → lifeOk s.fuses.lifecycle 0x35 h.key = true → s.changeOk h ownerSig who = true →
          h.bodyOk = true → (s.changeBusy target = false → Completes (.lifecycle h target key ownerSig) s fun t =>
              t = u.beginChange target (h.i3c, h.tag, h.counter) key)
            ∧ (s.changeBusy target = true → Completes (.lifecycle h target key ownerSig) s (refused 0x0103)))
      ∧ (named → changeBy s.fuses.lifecycle target = none → Completes (.lifecycle h target key ownerSig) s (refused 0x0604))
      ∧ (s.fwFree = true → s.admits h 0x36 {} → n ≠ 0 → Completes (.keySet h n roles key) s fun t => t = { s with flash := t.flash, mgmt := t.mgmt }
          ∧ t.flash = { s.flash with keys := t.flash.keys }
          ∧ t.flash.keys[toFin 3 (n.toNat - 1)] = (if roles = 0 then none else some { roles := roles, key := key, signedBy := s.fuses.owner })
          ∧ ∀ k, k ≠ toFin 3 (n.toNat - 1) → t.flash.keys[k] = s.flash.keys[k])
      ∧ (s.fwFree = true → s.admits h 0x37 need →
          ((∃ e ∈ s.flash.defects, e.word = entry) → Completes (.defectEdit h entry) s fun t => t = { s with flash := t.flash, mgmt := t.mgmt }
              ∧ t.flash = { s.flash with defects := t.flash.defects } ∧ ∀ e, e ∈ t.flash.defects ↔ e ∈ s.flash.defects ∧ e.word ≠ entry)
            ∧ ((∀ e ∈ s.flash.defects, e.word ≠ entry) → Completes (.defectEdit h entry) s (refused 0x0102)))
      ∧ (s.fwFree = true → s.admits h 0x38 need → Completes (.debugUnlock h) s fun t => t = { s with mgmt := t.mgmt }
          ∧ t.mgmt.sec = { s.mgmt.sec with debugOpen := true })
      ∧ (s.pathUp path = true → s.clocks.pkg = .run → (s.fwUp = true → s.mgmt.spdmHeld = [] →
          let gated : Prop := ∃ host, path = .mctp host ∧ (s.hostPort host).busMaster = false
          let sends : SpdmResp → State → Prop := fun r t => t = { s with mgmt := t.mgmt }
            ∧ (¬ gated → t.mgmt.spdmSent = s.mgmt.spdmSent ++ [(path, r)]) ∧ (gated → t.mgmt.spdmSent = s.mgmt.spdmSent)
          (s.fuses.lifecycle = 4 → Completes (.spdmRequest path req) s fun t => sends (.error 5) t ∧ t.mgmt.spdm = s.mgmt.spdm)
            ∧ (s.fuses.lifecycle ≠ 4 → (spdmStep req).1 ≤ s.spdmLevel path → Completes (.spdmRequest path req) s fun t =>
              sends (s.spdmAnswer req) t ∧ t.mgmt.spdm.length ≤ max 4 s.mgmt.spdm.length
              ∧ ∀ l, (spdmStep req).2 = some l → t.spdmLevel path = l.val))
          ∧ (s.fwUp = false → Completes (.spdmRequest path req) s (· = s.holdSpdm path req)))
      ∧ (∀ code, s.pathUp path = true → s.clocks.pkg = .ps3 → s.wakeCode (SpdmPath.source path) = some code →
          Completes (.spdmRequest path req) s (· = (s.wakePackage code).holdSpdm path req))
      ∧ (s.jtagOk op = true → Completes (.jtagInstruction op) s fun t => t = { s with lands := t.lands } ∧ t.lands.jtag = op
          ∧ (op = .idcode → t.lands.jtagOut.extractLsb' 28 4 = s.fuses.stepping ∧ t.lands.jtagOut.extractLsb' 12 16 = 0x9216
            ∧ t.lands.jtagOut.extractLsb' 1 11 = 0x4B7 ∧ t.lands.jtagOut.getLsbD 0 = true))
      ∧ (s.trialRuns = true → (s.countTrial.bootRec.trialSeconds.toNat < 600 → s.mgmt.trialSwitches < 2 → Completes .trialTick s fun t => store t
            ∧ t.mgmt.trialClear = s.mgmt.trialClear + 1 ∧ t.mgmt.noStall = s.mgmt.noStall + 1
            ∧ boots t { s.bootRec with trialSeconds := satInc s.bootRec.trialSeconds, writes := s.bootRec.writes + 1 })
          ∧ ((600 ≤ s.countTrial.bootRec.trialSeconds.toNat ∨ 2 ≤ s.mgmt.trialSwitches) → Completes .trialTick s fun t => t = s.countTrial.revert 0))
      ∧ (s.trialRuns = true → s.healthy = true → Completes .imageConfirm s fun t => t = { s with fuses := t.fuses, flash := t.flash, mgmt := t.mgmt }
          ∧ t.fuses = { s.fuses with svn := t.fuses.svn } ∧ t.fuses.svn.toNat = max s.fuses.svn.toNat fw.svn.toNat
          ∧ t.mgmt.trial.healthOk = false ∧ boots t { s.bootRec with trial := false, writes := s.bootRec.writes + 1 }
          ∧ (s.bootRec.oldFormat ≠ s.mgmt.format → ∀ x ∈ t.flash.copies, x.1 ≠ s.bootRec.oldFormat))

/-! ## The whole machine -/

/-- A step takes the command at the front of the queue and gives it its effect on the state with the rest of the queue; on an empty queue one
tick of rack time passes, 6 and 7 ns in turn by the reference's pattern or 250 ns without it (R369, R372); that a step on an empty queue is a
tick, at which the ports and firmware also serve what waited, is the model's choice (log 2). Accesses that came while the package
slept are performed in the order received (R380). No word of the table spells a command. -/
def Obligations.AStepGivesTheFrontCommandItsEffect : Prop :=
  ∀ (c : Instr) (rest : List Instr) (nbits w : Nat) (s : State),
    step { s with pending := c :: rest } = exec c { s with pending := rest }
      ∧ (s.pending = [] → step s = .next s.tick)
      ∧ (s.pending = [] → (∀ host, (s.hostPort host).held = [] ∧ (s.hostPort host).resting = []) → s.mgmt.held = [] → s.mgmt.spdmHeld = [] →
        ∃ t, step s = .next t ∧ t = { s with time := t.time, clocks := t.clocks }
        ∧ (s.lands.bedrockPg = false → t = s)
        ∧ (s.lands.bedrockPg = true → s.clocks.clk.refRack = false → t.time = s.time + 250)
        ∧ (s.lands.bedrockPg = true → s.clocks.clk.refRack = true → s.clocks.absorb = 0 →
          t.time = s.time + (if s.clocks.edge = 1 ∨ s.clocks.edge = 3 then 7 else 6) ∧ t.clocks = { s.clocks with edge := s.clocks.edge + 1 }))
      ∧ (∀ host l, s.pending = [] → s.clocks.pkg = .run → (s.hostPort host).resting = l → l ≠ [] → (host = true → (s.hostPort false).resting = []) →
        ∃ t, step s = .next t ∧ ∃ u v : State, u = { s with time := u.time, clocks := u.clocks }
          ∧ v = l.foldl (fun v x => v.serveBar host x) (u.setHostPort host { s.hostPort host with resting := [] })
          ∧ t = (((((if host then v else v.serveResting true).serveHeld false).serveHeld true).serveMessages).serveSpdm))
      ∧ Sys2Proof.decodeTableWord nbits w = none ∧ s.withFetchWord nbits w = s

/-- R80 to R83: the word of every core instruction, written from the encoding tables, decodes to that instruction with every operand. -/
def Obligations.CoreInstructionsDecodeFromTheirWords : Prop :=
  ∀ (c : Instr) (i : Issue), Instr.issueOf c = some i → ∃ w, encodeCoreWord c = some w ∧ decodeCoreWord i w = some c

/-- R454, R460: from any state a step never lowers the security version counter, and only IMAGE_CONFIRM changes it. -/
def Obligations.SecurityVersionNeverFalls : Prop :=
  ∀ (n : Nat) (s t : State), s.svnAtLeast n → step s = .next t → t.svnAtLeast n
    ∧ (s.pending.head? ≠ some .imageConfirm → t.fuses.svn = s.fuses.svn)

/-- What reset leaves: no command waits, the counter of R454 at zero, memories in their canonical form with nothing in them, and the
package without its bedrock rail; every field of the state stands as the log's rows 3 to 5 say. -/
def Obligations.ResetLeavesTheInvariants : Prop :=
  State.reset.svnAtLeast 0 ∧ State.reset.canonical ∧ State.reset.pending = [] ∧ State.reset.cores = [] ∧ State.reset.lands.bedrockPg = false
    ∧ State.reset.lands.pkgResetN = true ∧ State.reset.boot.status.ready = false ∧ State.reset.time = 0 ∧ State.reset.fab.routes = []
end

