-- ==== Sys2Proof/Laws/State.lean ====
section
/-! SUPPORT. What each named update of the state leaves as it was, one lemma for each field, true by unfolding; so no later proof
opens a record update. -/

namespace Sys2Proof.Machine

@[simp] theorem State.setPart_pending (s : State) (p : PartNo) (x : Part) : (s.setPart p x).pending = s.pending := rfl
@[simp] theorem State.setPart_freeCtr (s : State) (p : PartNo) (x : Part) : (s.setPart p x).freeCtr = s.freeCtr := rfl
@[simp] theorem State.setPart_time (s : State) (p : PartNo) (x : Part) : (s.setPart p x).time = s.time := rfl
@[simp] theorem State.setPart_device (s : State) (p : PartNo) (x : Part) : (s.setPart p x).device = s.device := rfl
@[simp] theorem State.setPart_parts (s : State) (p : PartNo) (x : Part) : (s.setPart p x).parts = s.parts.set p x := rfl
@[simp] theorem State.setPart_cores (s : State) (p : PartNo) (x : Part) : (s.setPart p x).cores = s.cores := rfl
@[simp] theorem State.setPart_clus (s : State) (p : PartNo) (x : Part) : (s.setPart p x).clus = s.clus := rfl
@[simp] theorem State.setPart_sram (s : State) (p : PartNo) (x : Part) : (s.setPart p x).sram = s.sram := rfl
@[simp] theorem State.setPart_sramPoison (s : State) (p : PartNo) (x : Part) : (s.setPart p x).sramPoison = s.sramPoison := rfl
@[simp] theorem State.setPart_qins (s : State) (p : PartNo) (x : Part) : (s.setPart p x).qins = s.qins := rfl
@[simp] theorem State.setPart_qouts (s : State) (p : PartNo) (x : Part) : (s.setPart p x).qouts = s.qouts := rfl
@[simp] theorem State.setPart_dma (s : State) (p : PartNo) (x : Part) : (s.setPart p x).dma = s.dma := rfl
@[simp] theorem State.setPart_memConfig (s : State) (p : PartNo) (x : Part) : (s.setPart p x).memConfig = s.memConfig := rfl
@[simp] theorem State.setPart_hbm (s : State) (p : PartNo) (x : Part) : (s.setPart p x).hbm = s.hbm := rfl
@[simp] theorem State.setPart_mesh (s : State) (p : PartNo) (x : Part) : (s.setPart p x).mesh = s.mesh := rfl
@[simp] theorem State.setPart_wordAfter (s : State) (p : PartNo) (x : Part) : (s.setPart p x).wordAfter = s.wordAfter := rfl
@[simp] theorem State.setPart_words (s : State) (p : PartNo) (x : Part) : (s.setPart p x).words = s.words := rfl
@[simp] theorem State.setPart_reply (s : State) (p : PartNo) (x : Part) : (s.setPart p x).reply = s.reply := rfl
@[simp] theorem State.setPart_fab (s : State) (p : PartNo) (x : Part) : (s.setPart p x).fab = s.fab := rfl
@[simp] theorem State.setPart_licence (s : State) (p : PartNo) (x : Part) : (s.setPart p x).licence = s.licence := rfl
@[simp] theorem State.setPart_host (s : State) (p : PartNo) (x : Part) : (s.setPart p x).host = s.host := rfl
@[simp] theorem State.setPart_power (s : State) (p : PartNo) (x : Part) : (s.setPart p x).power = s.power := rfl
@[simp] theorem State.setPart_clocks (s : State) (p : PartNo) (x : Part) : (s.setPart p x).clocks = s.clocks := rfl
@[simp] theorem State.setPart_boot (s : State) (p : PartNo) (x : Part) : (s.setPart p x).boot = s.boot := rfl
@[simp] theorem State.setPart_lands (s : State) (p : PartNo) (x : Part) : (s.setPart p x).lands = s.lands := rfl
@[simp] theorem State.setPart_rcv (s : State) (p : PartNo) (x : Part) : (s.setPart p x).rcv = s.rcv := rfl
@[simp] theorem State.setPart_mgmt (s : State) (p : PartNo) (x : Part) : (s.setPart p x).mgmt = s.mgmt := rfl
@[simp] theorem State.setPart_fuses (s : State) (p : PartNo) (x : Part) : (s.setPart p x).fuses = s.fuses := rfl
@[simp] theorem State.setPart_flash (s : State) (p : PartNo) (x : Part) : (s.setPart p x).flash = s.flash := rfl

@[simp] theorem State.updPart_pending (s : State) (p : PartNo) (f : Part → Part) : (s.updPart p f).pending = s.pending := rfl
@[simp] theorem State.updPart_freeCtr (s : State) (p : PartNo) (f : Part → Part) : (s.updPart p f).freeCtr = s.freeCtr := rfl
@[simp] theorem State.updPart_time (s : State) (p : PartNo) (f : Part → Part) : (s.updPart p f).time = s.time := rfl
@[simp] theorem State.updPart_device (s : State) (p : PartNo) (f : Part → Part) : (s.updPart p f).device = s.device := rfl
@[simp] theorem State.updPart_parts (s : State) (p : PartNo) (f : Part → Part) : (s.updPart p f).parts = s.parts.set p (f (s.part p)) := rfl
@[simp] theorem State.updPart_cores (s : State) (p : PartNo) (f : Part → Part) : (s.updPart p f).cores = s.cores := rfl
@[simp] theorem State.updPart_clus (s : State) (p : PartNo) (f : Part → Part) : (s.updPart p f).clus = s.clus := rfl
@[simp] theorem State.updPart_sram (s : State) (p : PartNo) (f : Part → Part) : (s.updPart p f).sram = s.sram := rfl
@[simp] theorem State.updPart_sramPoison (s : State) (p : PartNo) (f : Part → Part) : (s.updPart p f).sramPoison = s.sramPoison := rfl
@[simp] theorem State.updPart_qins (s : State) (p : PartNo) (f : Part → Part) : (s.updPart p f).qins = s.qins := rfl
@[simp] theorem State.updPart_qouts (s : State) (p : PartNo) (f : Part → Part) : (s.updPart p f).qouts = s.qouts := rfl
@[simp] theorem State.updPart_dma (s : State) (p : PartNo) (f : Part → Part) : (s.updPart p f).dma = s.dma := rfl
@[simp] theorem State.updPart_memConfig (s : State) (p : PartNo) (f : Part → Part) : (s.updPart p f).memConfig = s.memConfig := rfl
@[simp] theorem State.updPart_hbm (s : State) (p : PartNo) (f : Part → Part) : (s.updPart p f).hbm = s.hbm := rfl
@[simp] theorem State.updPart_mesh (s : State) (p : PartNo) (f : Part → Part) : (s.updPart p f).mesh = s.mesh := rfl
@[simp] theorem State.updPart_wordAfter (s : State) (p : PartNo) (f : Part → Part) : (s.updPart p f).wordAfter = s.wordAfter := rfl
@[simp] theorem State.updPart_words (s : State) (p : PartNo) (f : Part → Part) : (s.updPart p f).words = s.words := rfl
@[simp] theorem State.updPart_reply (s : State) (p : PartNo) (f : Part → Part) : (s.updPart p f).reply = s.reply := rfl
@[simp] theorem State.updPart_fab (s : State) (p : PartNo) (f : Part → Part) : (s.updPart p f).fab = s.fab := rfl
@[simp] theorem State.updPart_licence (s : State) (p : PartNo) (f : Part → Part) : (s.updPart p f).licence = s.licence := rfl
@[simp] theorem State.updPart_host (s : State) (p : PartNo) (f : Part → Part) : (s.updPart p f).host = s.host := rfl
@[simp] theorem State.updPart_power (s : State) (p : PartNo) (f : Part → Part) : (s.updPart p f).power = s.power := rfl
@[simp] theorem State.updPart_clocks (s : State) (p : PartNo) (f : Part → Part) : (s.updPart p f).clocks = s.clocks := rfl
@[simp] theorem State.updPart_boot (s : State) (p : PartNo) (f : Part → Part) : (s.updPart p f).boot = s.boot := rfl
@[simp] theorem State.updPart_lands (s : State) (p : PartNo) (f : Part → Part) : (s.updPart p f).lands = s.lands := rfl
@[simp] theorem State.updPart_rcv (s : State) (p : PartNo) (f : Part → Part) : (s.updPart p f).rcv = s.rcv := rfl
@[simp] theorem State.updPart_mgmt (s : State) (p : PartNo) (f : Part → Part) : (s.updPart p f).mgmt = s.mgmt := rfl
@[simp] theorem State.updPart_fuses (s : State) (p : PartNo) (f : Part → Part) : (s.updPart p f).fuses = s.fuses := rfl
@[simp] theorem State.updPart_flash (s : State) (p : PartNo) (f : Part → Part) : (s.updPart p f).flash = s.flash := rfl

@[simp] theorem State.setCore_pending (s : State) (p : PartNo) (k : Fin 1024) (x : Core) : (s.setCore p k x).pending = s.pending := rfl
@[simp] theorem State.setCore_freeCtr (s : State) (p : PartNo) (k : Fin 1024) (x : Core) : (s.setCore p k x).freeCtr = s.freeCtr := rfl
@[simp] theorem State.setCore_time (s : State) (p : PartNo) (k : Fin 1024) (x : Core) : (s.setCore p k x).time = s.time := rfl
@[simp] theorem State.setCore_device (s : State) (p : PartNo) (k : Fin 1024) (x : Core) : (s.setCore p k x).device = s.device := rfl
@[simp] theorem State.setCore_parts (s : State) (p : PartNo) (k : Fin 1024) (x : Core) : (s.setCore p k x).parts = s.parts := rfl
@[simp] theorem State.setCore_cores (s : State) (p : PartNo) (k : Fin 1024) (x : Core) : (s.setCore p k x).cores = Table.set {} s.cores (coreKey p k) x := rfl
@[simp] theorem State.setCore_clus (s : State) (p : PartNo) (k : Fin 1024) (x : Core) : (s.setCore p k x).clus = s.clus := rfl
@[simp] theorem State.setCore_sram (s : State) (p : PartNo) (k : Fin 1024) (x : Core) : (s.setCore p k x).sram = s.sram := rfl
@[simp] theorem State.setCore_sramPoison (s : State) (p : PartNo) (k : Fin 1024) (x : Core) : (s.setCore p k x).sramPoison = s.sramPoison := rfl
@[simp] theorem State.setCore_qins (s : State) (p : PartNo) (k : Fin 1024) (x : Core) : (s.setCore p k x).qins = s.qins := rfl
@[simp] theorem State.setCore_qouts (s : State) (p : PartNo) (k : Fin 1024) (x : Core) : (s.setCore p k x).qouts = s.qouts := rfl
@[simp] theorem State.setCore_dma (s : State) (p : PartNo) (k : Fin 1024) (x : Core) : (s.setCore p k x).dma = s.dma := rfl
@[simp] theorem State.setCore_memConfig (s : State) (p : PartNo) (k : Fin 1024) (x : Core) : (s.setCore p k x).memConfig = s.memConfig := rfl
@[simp] theorem State.setCore_hbm (s : State) (p : PartNo) (k : Fin 1024) (x : Core) : (s.setCore p k x).hbm = s.hbm := rfl
@[simp] theorem State.setCore_mesh (s : State) (p : PartNo) (k : Fin 1024) (x : Core) : (s.setCore p k x).mesh = s.mesh := rfl
@[simp] theorem State.setCore_wordAfter (s : State) (p : PartNo) (k : Fin 1024) (x : Core) : (s.setCore p k x).wordAfter = s.wordAfter := rfl
@[simp] theorem State.setCore_words (s : State) (p : PartNo) (k : Fin 1024) (x : Core) : (s.setCore p k x).words = s.words := rfl
@[simp] theorem State.setCore_reply (s : State) (p : PartNo) (k : Fin 1024) (x : Core) : (s.setCore p k x).reply = s.reply := rfl
@[simp] theorem State.setCore_fab (s : State) (p : PartNo) (k : Fin 1024) (x : Core) : (s.setCore p k x).fab = s.fab := rfl
@[simp] theorem State.setCore_licence (s : State) (p : PartNo) (k : Fin 1024) (x : Core) : (s.setCore p k x).licence = s.licence := rfl
@[simp] theorem State.setCore_host (s : State) (p : PartNo) (k : Fin 1024) (x : Core) : (s.setCore p k x).host = s.host := rfl
@[simp] theorem State.setCore_power (s : State) (p : PartNo) (k : Fin 1024) (x : Core) : (s.setCore p k x).power = s.power := rfl
@[simp] theorem State.setCore_clocks (s : State) (p : PartNo) (k : Fin 1024) (x : Core) : (s.setCore p k x).clocks = s.clocks := rfl
@[simp] theorem State.setCore_boot (s : State) (p : PartNo) (k : Fin 1024) (x : Core) : (s.setCore p k x).boot = s.boot := rfl
@[simp] theorem State.setCore_lands (s : State) (p : PartNo) (k : Fin 1024) (x : Core) : (s.setCore p k x).lands = s.lands := rfl
@[simp] theorem State.setCore_rcv (s : State) (p : PartNo) (k : Fin 1024) (x : Core) : (s.setCore p k x).rcv = s.rcv := rfl
@[simp] theorem State.setCore_mgmt (s : State) (p : PartNo) (k : Fin 1024) (x : Core) : (s.setCore p k x).mgmt = s.mgmt := rfl
@[simp] theorem State.setCore_fuses (s : State) (p : PartNo) (k : Fin 1024) (x : Core) : (s.setCore p k x).fuses = s.fuses := rfl
@[simp] theorem State.setCore_flash (s : State) (p : PartNo) (k : Fin 1024) (x : Core) : (s.setCore p k x).flash = s.flash := rfl

@[simp] theorem State.updCore_pending (s : State) (p : PartNo) (k : Fin 1024) (f : Core → Core) : (s.updCore p k f).pending = s.pending := rfl
@[simp] theorem State.updCore_freeCtr (s : State) (p : PartNo) (k : Fin 1024) (f : Core → Core) : (s.updCore p k f).freeCtr = s.freeCtr := rfl
@[simp] theorem State.updCore_time (s : State) (p : PartNo) (k : Fin 1024) (f : Core → Core) : (s.updCore p k f).time = s.time := rfl
@[simp] theorem State.updCore_device (s : State) (p : PartNo) (k : Fin 1024) (f : Core → Core) : (s.updCore p k f).device = s.device := rfl
@[simp] theorem State.updCore_parts (s : State) (p : PartNo) (k : Fin 1024) (f : Core → Core) : (s.updCore p k f).parts = s.parts := rfl
@[simp] theorem State.updCore_cores (s : State) (p : PartNo) (k : Fin 1024) (f : Core → Core) : (s.updCore p k f).cores = Table.set {} s.cores (coreKey p k) (f (s.core p k)) := rfl
@[simp] theorem State.updCore_clus (s : State) (p : PartNo) (k : Fin 1024) (f : Core → Core) : (s.updCore p k f).clus = s.clus := rfl
@[simp] theorem State.updCore_sram (s : State) (p : PartNo) (k : Fin 1024) (f : Core → Core) : (s.updCore p k f).sram = s.sram := rfl
@[simp] theorem State.updCore_sramPoison (s : State) (p : PartNo) (k : Fin 1024) (f : Core → Core) : (s.updCore p k f).sramPoison = s.sramPoison := rfl
@[simp] theorem State.updCore_qins (s : State) (p : PartNo) (k : Fin 1024) (f : Core → Core) : (s.updCore p k f).qins = s.qins := rfl
@[simp] theorem State.updCore_qouts (s : State) (p : PartNo) (k : Fin 1024) (f : Core → Core) : (s.updCore p k f).qouts = s.qouts := rfl
@[simp] theorem State.updCore_dma (s : State) (p : PartNo) (k : Fin 1024) (f : Core → Core) : (s.updCore p k f).dma = s.dma := rfl
@[simp] theorem State.updCore_memConfig (s : State) (p : PartNo) (k : Fin 1024) (f : Core → Core) : (s.updCore p k f).memConfig = s.memConfig := rfl
@[simp] theorem State.updCore_hbm (s : State) (p : PartNo) (k : Fin 1024) (f : Core → Core) : (s.updCore p k f).hbm = s.hbm := rfl
@[simp] theorem State.updCore_mesh (s : State) (p : PartNo) (k : Fin 1024) (f : Core → Core) : (s.updCore p k f).mesh = s.mesh := rfl
@[simp] theorem State.updCore_wordAfter (s : State) (p : PartNo) (k : Fin 1024) (f : Core → Core) : (s.updCore p k f).wordAfter = s.wordAfter := rfl
@[simp] theorem State.updCore_words (s : State) (p : PartNo) (k : Fin 1024) (f : Core → Core) : (s.updCore p k f).words = s.words := rfl
@[simp] theorem State.updCore_reply (s : State) (p : PartNo) (k : Fin 1024) (f : Core → Core) : (s.updCore p k f).reply = s.reply := rfl
@[simp] theorem State.updCore_fab (s : State) (p : PartNo) (k : Fin 1024) (f : Core → Core) : (s.updCore p k f).fab = s.fab := rfl
@[simp] theorem State.updCore_licence (s : State) (p : PartNo) (k : Fin 1024) (f : Core → Core) : (s.updCore p k f).licence = s.licence := rfl
@[simp] theorem State.updCore_host (s : State) (p : PartNo) (k : Fin 1024) (f : Core → Core) : (s.updCore p k f).host = s.host := rfl
@[simp] theorem State.updCore_power (s : State) (p : PartNo) (k : Fin 1024) (f : Core → Core) : (s.updCore p k f).power = s.power := rfl
@[simp] theorem State.updCore_clocks (s : State) (p : PartNo) (k : Fin 1024) (f : Core → Core) : (s.updCore p k f).clocks = s.clocks := rfl
@[simp] theorem State.updCore_boot (s : State) (p : PartNo) (k : Fin 1024) (f : Core → Core) : (s.updCore p k f).boot = s.boot := rfl
@[simp] theorem State.updCore_lands (s : State) (p : PartNo) (k : Fin 1024) (f : Core → Core) : (s.updCore p k f).lands = s.lands := rfl
@[simp] theorem State.updCore_rcv (s : State) (p : PartNo) (k : Fin 1024) (f : Core → Core) : (s.updCore p k f).rcv = s.rcv := rfl
@[simp] theorem State.updCore_mgmt (s : State) (p : PartNo) (k : Fin 1024) (f : Core → Core) : (s.updCore p k f).mgmt = s.mgmt := rfl
@[simp] theorem State.updCore_fuses (s : State) (p : PartNo) (k : Fin 1024) (f : Core → Core) : (s.updCore p k f).fuses = s.fuses := rfl
@[simp] theorem State.updCore_flash (s : State) (p : PartNo) (k : Fin 1024) (f : Core → Core) : (s.updCore p k f).flash = s.flash := rfl

@[simp] theorem State.setQin_pending (s : State) (p : PartNo) (k : Fin 1024) (q : Fin 8) (x : QIn) : (s.setQin p k q x).pending = s.pending := rfl
@[simp] theorem State.setQin_freeCtr (s : State) (p : PartNo) (k : Fin 1024) (q : Fin 8) (x : QIn) : (s.setQin p k q x).freeCtr = s.freeCtr := rfl
@[simp] theorem State.setQin_time (s : State) (p : PartNo) (k : Fin 1024) (q : Fin 8) (x : QIn) : (s.setQin p k q x).time = s.time := rfl
@[simp] theorem State.setQin_device (s : State) (p : PartNo) (k : Fin 1024) (q : Fin 8) (x : QIn) : (s.setQin p k q x).device = s.device := rfl
@[simp] theorem State.setQin_parts (s : State) (p : PartNo) (k : Fin 1024) (q : Fin 8) (x : QIn) : (s.setQin p k q x).parts = s.parts := rfl
@[simp] theorem State.setQin_cores (s : State) (p : PartNo) (k : Fin 1024) (q : Fin 8) (x : QIn) : (s.setQin p k q x).cores = s.cores := rfl
@[simp] theorem State.setQin_clus (s : State) (p : PartNo) (k : Fin 1024) (q : Fin 8) (x : QIn) : (s.setQin p k q x).clus = s.clus := rfl
@[simp] theorem State.setQin_sram (s : State) (p : PartNo) (k : Fin 1024) (q : Fin 8) (x : QIn) : (s.setQin p k q x).sram = s.sram := rfl
@[simp] theorem State.setQin_sramPoison (s : State) (p : PartNo) (k : Fin 1024) (q : Fin 8) (x : QIn) : (s.setQin p k q x).sramPoison = s.sramPoison := rfl
@[simp] theorem State.setQin_qins (s : State) (p : PartNo) (k : Fin 1024) (q : Fin 8) (x : QIn) : (s.setQin p k q x).qins = Table.set {} s.qins (coreKey p k * 8 + q.val) x := rfl
@[simp] theorem State.setQin_qouts (s : State) (p : PartNo) (k : Fin 1024) (q : Fin 8) (x : QIn) : (s.setQin p k q x).qouts = s.qouts := rfl
@[simp] theorem State.setQin_dma (s : State) (p : PartNo) (k : Fin 1024) (q : Fin 8) (x : QIn) : (s.setQin p k q x).dma = s.dma := rfl
@[simp] theorem State.setQin_memConfig (s : State) (p : PartNo) (k : Fin 1024) (q : Fin 8) (x : QIn) : (s.setQin p k q x).memConfig = s.memConfig := rfl
@[simp] theorem State.setQin_hbm (s : State) (p : PartNo) (k : Fin 1024) (q : Fin 8) (x : QIn) : (s.setQin p k q x).hbm = s.hbm := rfl
@[simp] theorem State.setQin_mesh (s : State) (p : PartNo) (k : Fin 1024) (q : Fin 8) (x : QIn) : (s.setQin p k q x).mesh = s.mesh := rfl
@[simp] theorem State.setQin_wordAfter (s : State) (p : PartNo) (k : Fin 1024) (q : Fin 8) (x : QIn) : (s.setQin p k q x).wordAfter = s.wordAfter := rfl
@[simp] theorem State.setQin_words (s : State) (p : PartNo) (k : Fin 1024) (q : Fin 8) (x : QIn) : (s.setQin p k q x).words = s.words := rfl
@[simp] theorem State.setQin_reply (s : State) (p : PartNo) (k : Fin 1024) (q : Fin 8) (x : QIn) : (s.setQin p k q x).reply = s.reply := rfl
@[simp] theorem State.setQin_fab (s : State) (p : PartNo) (k : Fin 1024) (q : Fin 8) (x : QIn) : (s.setQin p k q x).fab = s.fab := rfl
@[simp] theorem State.setQin_licence (s : State) (p : PartNo) (k : Fin 1024) (q : Fin 8) (x : QIn) : (s.setQin p k q x).licence = s.licence := rfl
@[simp] theorem State.setQin_host (s : State) (p : PartNo) (k : Fin 1024) (q : Fin 8) (x : QIn) : (s.setQin p k q x).host = s.host := rfl
@[simp] theorem State.setQin_power (s : State) (p : PartNo) (k : Fin 1024) (q : Fin 8) (x : QIn) : (s.setQin p k q x).power = s.power := rfl
@[simp] theorem State.setQin_clocks (s : State) (p : PartNo) (k : Fin 1024) (q : Fin 8) (x : QIn) : (s.setQin p k q x).clocks = s.clocks := rfl
@[simp] theorem State.setQin_boot (s : State) (p : PartNo) (k : Fin 1024) (q : Fin 8) (x : QIn) : (s.setQin p k q x).boot = s.boot := rfl
@[simp] theorem State.setQin_lands (s : State) (p : PartNo) (k : Fin 1024) (q : Fin 8) (x : QIn) : (s.setQin p k q x).lands = s.lands := rfl
@[simp] theorem State.setQin_rcv (s : State) (p : PartNo) (k : Fin 1024) (q : Fin 8) (x : QIn) : (s.setQin p k q x).rcv = s.rcv := rfl
@[simp] theorem State.setQin_mgmt (s : State) (p : PartNo) (k : Fin 1024) (q : Fin 8) (x : QIn) : (s.setQin p k q x).mgmt = s.mgmt := rfl
@[simp] theorem State.setQin_fuses (s : State) (p : PartNo) (k : Fin 1024) (q : Fin 8) (x : QIn) : (s.setQin p k q x).fuses = s.fuses := rfl
@[simp] theorem State.setQin_flash (s : State) (p : PartNo) (k : Fin 1024) (q : Fin 8) (x : QIn) : (s.setQin p k q x).flash = s.flash := rfl

@[simp] theorem State.setQout_pending (s : State) (p : PartNo) (k : Fin 1024) (q : Fin 8) (x : QOut) : (s.setQout p k q x).pending = s.pending := rfl
@[simp] theorem State.setQout_freeCtr (s : State) (p : PartNo) (k : Fin 1024) (q : Fin 8) (x : QOut) : (s.setQout p k q x).freeCtr = s.freeCtr := rfl
@[simp] theorem State.setQout_time (s : State) (p : PartNo) (k : Fin 1024) (q : Fin 8) (x : QOut) : (s.setQout p k q x).time = s.time := rfl
@[simp] theorem State.setQout_device (s : State) (p : PartNo) (k : Fin 1024) (q : Fin 8) (x : QOut) : (s.setQout p k q x).device = s.device := rfl
@[simp] theorem State.setQout_parts (s : State) (p : PartNo) (k : Fin 1024) (q : Fin 8) (x : QOut) : (s.setQout p k q x).parts = s.parts := rfl
@[simp] theorem State.setQout_cores (s : State) (p : PartNo) (k : Fin 1024) (q : Fin 8) (x : QOut) : (s.setQout p k q x).cores = s.cores := rfl
@[simp] theorem State.setQout_clus (s : State) (p : PartNo) (k : Fin 1024) (q : Fin 8) (x : QOut) : (s.setQout p k q x).clus = s.clus := rfl
@[simp] theorem State.setQout_sram (s : State) (p : PartNo) (k : Fin 1024) (q : Fin 8) (x : QOut) : (s.setQout p k q x).sram = s.sram := rfl
@[simp] theorem State.setQout_sramPoison (s : State) (p : PartNo) (k : Fin 1024) (q : Fin 8) (x : QOut) : (s.setQout p k q x).sramPoison = s.sramPoison := rfl
@[simp] theorem State.setQout_qins (s : State) (p : PartNo) (k : Fin 1024) (q : Fin 8) (x : QOut) : (s.setQout p k q x).qins = s.qins := rfl
@[simp] theorem State.setQout_qouts (s : State) (p : PartNo) (k : Fin 1024) (q : Fin 8) (x : QOut) : (s.setQout p k q x).qouts = Table.set {} s.qouts (coreKey p k * 8 + q.val) x := rfl
@[simp] theorem State.setQout_dma (s : State) (p : PartNo) (k : Fin 1024) (q : Fin 8) (x : QOut) : (s.setQout p k q x).dma = s.dma := rfl
@[simp] theorem State.setQout_memConfig (s : State) (p : PartNo) (k : Fin 1024) (q : Fin 8) (x : QOut) : (s.setQout p k q x).memConfig = s.memConfig := rfl
@[simp] theorem State.setQout_hbm (s : State) (p : PartNo) (k : Fin 1024) (q : Fin 8) (x : QOut) : (s.setQout p k q x).hbm = s.hbm := rfl
@[simp] theorem State.setQout_mesh (s : State) (p : PartNo) (k : Fin 1024) (q : Fin 8) (x : QOut) : (s.setQout p k q x).mesh = s.mesh := rfl
@[simp] theorem State.setQout_wordAfter (s : State) (p : PartNo) (k : Fin 1024) (q : Fin 8) (x : QOut) : (s.setQout p k q x).wordAfter = s.wordAfter := rfl
@[simp] theorem State.setQout_words (s : State) (p : PartNo) (k : Fin 1024) (q : Fin 8) (x : QOut) : (s.setQout p k q x).words = s.words := rfl
@[simp] theorem State.setQout_reply (s : State) (p : PartNo) (k : Fin 1024) (q : Fin 8) (x : QOut) : (s.setQout p k q x).reply = s.reply := rfl
@[simp] theorem State.setQout_fab (s : State) (p : PartNo) (k : Fin 1024) (q : Fin 8) (x : QOut) : (s.setQout p k q x).fab = s.fab := rfl
@[simp] theorem State.setQout_licence (s : State) (p : PartNo) (k : Fin 1024) (q : Fin 8) (x : QOut) : (s.setQout p k q x).licence = s.licence := rfl
@[simp] theorem State.setQout_host (s : State) (p : PartNo) (k : Fin 1024) (q : Fin 8) (x : QOut) : (s.setQout p k q x).host = s.host := rfl
@[simp] theorem State.setQout_power (s : State) (p : PartNo) (k : Fin 1024) (q : Fin 8) (x : QOut) : (s.setQout p k q x).power = s.power := rfl
@[simp] theorem State.setQout_clocks (s : State) (p : PartNo) (k : Fin 1024) (q : Fin 8) (x : QOut) : (s.setQout p k q x).clocks = s.clocks := rfl
@[simp] theorem State.setQout_boot (s : State) (p : PartNo) (k : Fin 1024) (q : Fin 8) (x : QOut) : (s.setQout p k q x).boot = s.boot := rfl
@[simp] theorem State.setQout_lands (s : State) (p : PartNo) (k : Fin 1024) (q : Fin 8) (x : QOut) : (s.setQout p k q x).lands = s.lands := rfl
@[simp] theorem State.setQout_rcv (s : State) (p : PartNo) (k : Fin 1024) (q : Fin 8) (x : QOut) : (s.setQout p k q x).rcv = s.rcv := rfl
@[simp] theorem State.setQout_mgmt (s : State) (p : PartNo) (k : Fin 1024) (q : Fin 8) (x : QOut) : (s.setQout p k q x).mgmt = s.mgmt := rfl
@[simp] theorem State.setQout_fuses (s : State) (p : PartNo) (k : Fin 1024) (q : Fin 8) (x : QOut) : (s.setQout p k q x).fuses = s.fuses := rfl
@[simp] theorem State.setQout_flash (s : State) (p : PartNo) (k : Fin 1024) (q : Fin 8) (x : QOut) : (s.setQout p k q x).flash = s.flash := rfl

@[simp] theorem State.setChan_pending (s : State) (cl : Fin 32) (ch : Fin 16) (x : DmaChan) : (s.setChan cl ch x).pending = s.pending := rfl
@[simp] theorem State.setChan_freeCtr (s : State) (cl : Fin 32) (ch : Fin 16) (x : DmaChan) : (s.setChan cl ch x).freeCtr = s.freeCtr := rfl
@[simp] theorem State.setChan_time (s : State) (cl : Fin 32) (ch : Fin 16) (x : DmaChan) : (s.setChan cl ch x).time = s.time := rfl
@[simp] theorem State.setChan_device (s : State) (cl : Fin 32) (ch : Fin 16) (x : DmaChan) : (s.setChan cl ch x).device = s.device := rfl
@[simp] theorem State.setChan_parts (s : State) (cl : Fin 32) (ch : Fin 16) (x : DmaChan) : (s.setChan cl ch x).parts = s.parts := rfl
@[simp] theorem State.setChan_cores (s : State) (cl : Fin 32) (ch : Fin 16) (x : DmaChan) : (s.setChan cl ch x).cores = s.cores := rfl
@[simp] theorem State.setChan_clus (s : State) (cl : Fin 32) (ch : Fin 16) (x : DmaChan) : (s.setChan cl ch x).clus = s.clus := rfl
@[simp] theorem State.setChan_sram (s : State) (cl : Fin 32) (ch : Fin 16) (x : DmaChan) : (s.setChan cl ch x).sram = s.sram := rfl
@[simp] theorem State.setChan_sramPoison (s : State) (cl : Fin 32) (ch : Fin 16) (x : DmaChan) : (s.setChan cl ch x).sramPoison = s.sramPoison := rfl
@[simp] theorem State.setChan_qins (s : State) (cl : Fin 32) (ch : Fin 16) (x : DmaChan) : (s.setChan cl ch x).qins = s.qins := rfl
@[simp] theorem State.setChan_qouts (s : State) (cl : Fin 32) (ch : Fin 16) (x : DmaChan) : (s.setChan cl ch x).qouts = s.qouts := rfl
@[simp] theorem State.setChan_memConfig (s : State) (cl : Fin 32) (ch : Fin 16) (x : DmaChan) : (s.setChan cl ch x).memConfig = s.memConfig := rfl
@[simp] theorem State.setChan_hbm (s : State) (cl : Fin 32) (ch : Fin 16) (x : DmaChan) : (s.setChan cl ch x).hbm = s.hbm := rfl
@[simp] theorem State.setChan_mesh (s : State) (cl : Fin 32) (ch : Fin 16) (x : DmaChan) : (s.setChan cl ch x).mesh = s.mesh := rfl
@[simp] theorem State.setChan_wordAfter (s : State) (cl : Fin 32) (ch : Fin 16) (x : DmaChan) : (s.setChan cl ch x).wordAfter = s.wordAfter := rfl
@[simp] theorem State.setChan_words (s : State) (cl : Fin 32) (ch : Fin 16) (x : DmaChan) : (s.setChan cl ch x).words = s.words := rfl
@[simp] theorem State.setChan_reply (s : State) (cl : Fin 32) (ch : Fin 16) (x : DmaChan) : (s.setChan cl ch x).reply = s.reply := rfl
@[simp] theorem State.setChan_fab (s : State) (cl : Fin 32) (ch : Fin 16) (x : DmaChan) : (s.setChan cl ch x).fab = s.fab := rfl
@[simp] theorem State.setChan_licence (s : State) (cl : Fin 32) (ch : Fin 16) (x : DmaChan) : (s.setChan cl ch x).licence = s.licence := rfl
@[simp] theorem State.setChan_host (s : State) (cl : Fin 32) (ch : Fin 16) (x : DmaChan) : (s.setChan cl ch x).host = s.host := rfl
@[simp] theorem State.setChan_power (s : State) (cl : Fin 32) (ch : Fin 16) (x : DmaChan) : (s.setChan cl ch x).power = s.power := rfl
@[simp] theorem State.setChan_clocks (s : State) (cl : Fin 32) (ch : Fin 16) (x : DmaChan) : (s.setChan cl ch x).clocks = s.clocks := rfl
@[simp] theorem State.setChan_boot (s : State) (cl : Fin 32) (ch : Fin 16) (x : DmaChan) : (s.setChan cl ch x).boot = s.boot := rfl
@[simp] theorem State.setChan_lands (s : State) (cl : Fin 32) (ch : Fin 16) (x : DmaChan) : (s.setChan cl ch x).lands = s.lands := rfl
@[simp] theorem State.setChan_rcv (s : State) (cl : Fin 32) (ch : Fin 16) (x : DmaChan) : (s.setChan cl ch x).rcv = s.rcv := rfl
@[simp] theorem State.setChan_mgmt (s : State) (cl : Fin 32) (ch : Fin 16) (x : DmaChan) : (s.setChan cl ch x).mgmt = s.mgmt := rfl
@[simp] theorem State.setChan_fuses (s : State) (cl : Fin 32) (ch : Fin 16) (x : DmaChan) : (s.setChan cl ch x).fuses = s.fuses := rfl
@[simp] theorem State.setChan_flash (s : State) (cl : Fin 32) (ch : Fin 16) (x : DmaChan) : (s.setChan cl ch x).flash = s.flash := rfl

@[simp] theorem State.updEng_pending (s : State) (cl : Fin 32) (f : DmaEng → DmaEng) : (s.updEng cl f).pending = s.pending := rfl
@[simp] theorem State.updEng_freeCtr (s : State) (cl : Fin 32) (f : DmaEng → DmaEng) : (s.updEng cl f).freeCtr = s.freeCtr := rfl
@[simp] theorem State.updEng_time (s : State) (cl : Fin 32) (f : DmaEng → DmaEng) : (s.updEng cl f).time = s.time := rfl
@[simp] theorem State.updEng_device (s : State) (cl : Fin 32) (f : DmaEng → DmaEng) : (s.updEng cl f).device = s.device := rfl
@[simp] theorem State.updEng_parts (s : State) (cl : Fin 32) (f : DmaEng → DmaEng) : (s.updEng cl f).parts = s.parts := rfl
@[simp] theorem State.updEng_cores (s : State) (cl : Fin 32) (f : DmaEng → DmaEng) : (s.updEng cl f).cores = s.cores := rfl
@[simp] theorem State.updEng_clus (s : State) (cl : Fin 32) (f : DmaEng → DmaEng) : (s.updEng cl f).clus = s.clus := rfl
@[simp] theorem State.updEng_sram (s : State) (cl : Fin 32) (f : DmaEng → DmaEng) : (s.updEng cl f).sram = s.sram := rfl
@[simp] theorem State.updEng_sramPoison (s : State) (cl : Fin 32) (f : DmaEng → DmaEng) : (s.updEng cl f).sramPoison = s.sramPoison := rfl
@[simp] theorem State.updEng_qins (s : State) (cl : Fin 32) (f : DmaEng → DmaEng) : (s.updEng cl f).qins = s.qins := rfl
@[simp] theorem State.updEng_qouts (s : State) (cl : Fin 32) (f : DmaEng → DmaEng) : (s.updEng cl f).qouts = s.qouts := rfl
@[simp] theorem State.updEng_dma (s : State) (cl : Fin 32) (f : DmaEng → DmaEng) : (s.updEng cl f).dma = s.dma.set cl (f s.dma[cl]) := rfl
@[simp] theorem State.updEng_memConfig (s : State) (cl : Fin 32) (f : DmaEng → DmaEng) : (s.updEng cl f).memConfig = s.memConfig := rfl
@[simp] theorem State.updEng_hbm (s : State) (cl : Fin 32) (f : DmaEng → DmaEng) : (s.updEng cl f).hbm = s.hbm := rfl
@[simp] theorem State.updEng_mesh (s : State) (cl : Fin 32) (f : DmaEng → DmaEng) : (s.updEng cl f).mesh = s.mesh := rfl
@[simp] theorem State.updEng_wordAfter (s : State) (cl : Fin 32) (f : DmaEng → DmaEng) : (s.updEng cl f).wordAfter = s.wordAfter := rfl
@[simp] theorem State.updEng_words (s : State) (cl : Fin 32) (f : DmaEng → DmaEng) : (s.updEng cl f).words = s.words := rfl
@[simp] theorem State.updEng_reply (s : State) (cl : Fin 32) (f : DmaEng → DmaEng) : (s.updEng cl f).reply = s.reply := rfl
@[simp] theorem State.updEng_fab (s : State) (cl : Fin 32) (f : DmaEng → DmaEng) : (s.updEng cl f).fab = s.fab := rfl
@[simp] theorem State.updEng_licence (s : State) (cl : Fin 32) (f : DmaEng → DmaEng) : (s.updEng cl f).licence = s.licence := rfl
@[simp] theorem State.updEng_host (s : State) (cl : Fin 32) (f : DmaEng → DmaEng) : (s.updEng cl f).host = s.host := rfl
@[simp] theorem State.updEng_power (s : State) (cl : Fin 32) (f : DmaEng → DmaEng) : (s.updEng cl f).power = s.power := rfl
@[simp] theorem State.updEng_clocks (s : State) (cl : Fin 32) (f : DmaEng → DmaEng) : (s.updEng cl f).clocks = s.clocks := rfl
@[simp] theorem State.updEng_boot (s : State) (cl : Fin 32) (f : DmaEng → DmaEng) : (s.updEng cl f).boot = s.boot := rfl
@[simp] theorem State.updEng_lands (s : State) (cl : Fin 32) (f : DmaEng → DmaEng) : (s.updEng cl f).lands = s.lands := rfl
@[simp] theorem State.updEng_rcv (s : State) (cl : Fin 32) (f : DmaEng → DmaEng) : (s.updEng cl f).rcv = s.rcv := rfl
@[simp] theorem State.updEng_mgmt (s : State) (cl : Fin 32) (f : DmaEng → DmaEng) : (s.updEng cl f).mgmt = s.mgmt := rfl
@[simp] theorem State.updEng_fuses (s : State) (cl : Fin 32) (f : DmaEng → DmaEng) : (s.updEng cl f).fuses = s.fuses := rfl
@[simp] theorem State.updEng_flash (s : State) (cl : Fin 32) (f : DmaEng → DmaEng) : (s.updEng cl f).flash = s.flash := rfl

@[simp] theorem State.updClu_pending (s : State) (cl : Fin 32) (f : Clu → Clu) : (s.updClu cl f).pending = s.pending := rfl
@[simp] theorem State.updClu_freeCtr (s : State) (cl : Fin 32) (f : Clu → Clu) : (s.updClu cl f).freeCtr = s.freeCtr := rfl
@[simp] theorem State.updClu_time (s : State) (cl : Fin 32) (f : Clu → Clu) : (s.updClu cl f).time = s.time := rfl
@[simp] theorem State.updClu_device (s : State) (cl : Fin 32) (f : Clu → Clu) : (s.updClu cl f).device = s.device := rfl
@[simp] theorem State.updClu_parts (s : State) (cl : Fin 32) (f : Clu → Clu) : (s.updClu cl f).parts = s.parts := rfl
@[simp] theorem State.updClu_cores (s : State) (cl : Fin 32) (f : Clu → Clu) : (s.updClu cl f).cores = s.cores := rfl
@[simp] theorem State.updClu_clus (s : State) (cl : Fin 32) (f : Clu → Clu) : (s.updClu cl f).clus = s.clus.set cl (f s.clus[cl]) := rfl
@[simp] theorem State.updClu_sram (s : State) (cl : Fin 32) (f : Clu → Clu) : (s.updClu cl f).sram = s.sram := rfl
@[simp] theorem State.updClu_sramPoison (s : State) (cl : Fin 32) (f : Clu → Clu) : (s.updClu cl f).sramPoison = s.sramPoison := rfl
@[simp] theorem State.updClu_qins (s : State) (cl : Fin 32) (f : Clu → Clu) : (s.updClu cl f).qins = s.qins := rfl
@[simp] theorem State.updClu_qouts (s : State) (cl : Fin 32) (f : Clu → Clu) : (s.updClu cl f).qouts = s.qouts := rfl
@[simp] theorem State.updClu_dma (s : State) (cl : Fin 32) (f : Clu → Clu) : (s.updClu cl f).dma = s.dma := rfl
@[simp] theorem State.updClu_memConfig (s : State) (cl : Fin 32) (f : Clu → Clu) : (s.updClu cl f).memConfig = s.memConfig := rfl
@[simp] theorem State.updClu_hbm (s : State) (cl : Fin 32) (f : Clu → Clu) : (s.updClu cl f).hbm = s.hbm := rfl
@[simp] theorem State.updClu_mesh (s : State) (cl : Fin 32) (f : Clu → Clu) : (s.updClu cl f).mesh = s.mesh := rfl
@[simp] theorem State.updClu_wordAfter (s : State) (cl : Fin 32) (f : Clu → Clu) : (s.updClu cl f).wordAfter = s.wordAfter := rfl
@[simp] theorem State.updClu_words (s : State) (cl : Fin 32) (f : Clu → Clu) : (s.updClu cl f).words = s.words := rfl
@[simp] theorem State.updClu_reply (s : State) (cl : Fin 32) (f : Clu → Clu) : (s.updClu cl f).reply = s.reply := rfl
@[simp] theorem State.updClu_fab (s : State) (cl : Fin 32) (f : Clu → Clu) : (s.updClu cl f).fab = s.fab := rfl
@[simp] theorem State.updClu_licence (s : State) (cl : Fin 32) (f : Clu → Clu) : (s.updClu cl f).licence = s.licence := rfl
@[simp] theorem State.updClu_host (s : State) (cl : Fin 32) (f : Clu → Clu) : (s.updClu cl f).host = s.host := rfl
@[simp] theorem State.updClu_power (s : State) (cl : Fin 32) (f : Clu → Clu) : (s.updClu cl f).power = s.power := rfl
@[simp] theorem State.updClu_clocks (s : State) (cl : Fin 32) (f : Clu → Clu) : (s.updClu cl f).clocks = s.clocks := rfl
@[simp] theorem State.updClu_boot (s : State) (cl : Fin 32) (f : Clu → Clu) : (s.updClu cl f).boot = s.boot := rfl
@[simp] theorem State.updClu_lands (s : State) (cl : Fin 32) (f : Clu → Clu) : (s.updClu cl f).lands = s.lands := rfl
@[simp] theorem State.updClu_rcv (s : State) (cl : Fin 32) (f : Clu → Clu) : (s.updClu cl f).rcv = s.rcv := rfl
@[simp] theorem State.updClu_mgmt (s : State) (cl : Fin 32) (f : Clu → Clu) : (s.updClu cl f).mgmt = s.mgmt := rfl
@[simp] theorem State.updClu_fuses (s : State) (cl : Fin 32) (f : Clu → Clu) : (s.updClu cl f).fuses = s.fuses := rfl
@[simp] theorem State.updClu_flash (s : State) (cl : Fin 32) (f : Clu → Clu) : (s.updClu cl f).flash = s.flash := rfl

@[simp] theorem State.updMc_pending (s : State) (m : Fin 12) (f : Mc → Mc) : (s.updMc m f).pending = s.pending := rfl
@[simp] theorem State.updMc_freeCtr (s : State) (m : Fin 12) (f : Mc → Mc) : (s.updMc m f).freeCtr = s.freeCtr := rfl
@[simp] theorem State.updMc_time (s : State) (m : Fin 12) (f : Mc → Mc) : (s.updMc m f).time = s.time := rfl
@[simp] theorem State.updMc_device (s : State) (m : Fin 12) (f : Mc → Mc) : (s.updMc m f).device = s.device := rfl
@[simp] theorem State.updMc_parts (s : State) (m : Fin 12) (f : Mc → Mc) : (s.updMc m f).parts = s.parts := rfl
@[simp] theorem State.updMc_cores (s : State) (m : Fin 12) (f : Mc → Mc) : (s.updMc m f).cores = s.cores := rfl
@[simp] theorem State.updMc_clus (s : State) (m : Fin 12) (f : Mc → Mc) : (s.updMc m f).clus = s.clus := rfl
@[simp] theorem State.updMc_sram (s : State) (m : Fin 12) (f : Mc → Mc) : (s.updMc m f).sram = s.sram := rfl
@[simp] theorem State.updMc_sramPoison (s : State) (m : Fin 12) (f : Mc → Mc) : (s.updMc m f).sramPoison = s.sramPoison := rfl
@[simp] theorem State.updMc_qins (s : State) (m : Fin 12) (f : Mc → Mc) : (s.updMc m f).qins = s.qins := rfl
@[simp] theorem State.updMc_qouts (s : State) (m : Fin 12) (f : Mc → Mc) : (s.updMc m f).qouts = s.qouts := rfl
@[simp] theorem State.updMc_dma (s : State) (m : Fin 12) (f : Mc → Mc) : (s.updMc m f).dma = s.dma := rfl
@[simp] theorem State.updMc_memConfig (s : State) (m : Fin 12) (f : Mc → Mc) : (s.updMc m f).memConfig = s.memConfig := rfl
@[simp] theorem State.updMc_mesh (s : State) (m : Fin 12) (f : Mc → Mc) : (s.updMc m f).mesh = s.mesh := rfl
@[simp] theorem State.updMc_wordAfter (s : State) (m : Fin 12) (f : Mc → Mc) : (s.updMc m f).wordAfter = s.wordAfter := rfl
@[simp] theorem State.updMc_words (s : State) (m : Fin 12) (f : Mc → Mc) : (s.updMc m f).words = s.words := rfl
@[simp] theorem State.updMc_reply (s : State) (m : Fin 12) (f : Mc → Mc) : (s.updMc m f).reply = s.reply := rfl
@[simp] theorem State.updMc_fab (s : State) (m : Fin 12) (f : Mc → Mc) : (s.updMc m f).fab = s.fab := rfl
@[simp] theorem State.updMc_licence (s : State) (m : Fin 12) (f : Mc → Mc) : (s.updMc m f).licence = s.licence := rfl
@[simp] theorem State.updMc_host (s : State) (m : Fin 12) (f : Mc → Mc) : (s.updMc m f).host = s.host := rfl
@[simp] theorem State.updMc_power (s : State) (m : Fin 12) (f : Mc → Mc) : (s.updMc m f).power = s.power := rfl
@[simp] theorem State.updMc_clocks (s : State) (m : Fin 12) (f : Mc → Mc) : (s.updMc m f).clocks = s.clocks := rfl
@[simp] theorem State.updMc_boot (s : State) (m : Fin 12) (f : Mc → Mc) : (s.updMc m f).boot = s.boot := rfl
@[simp] theorem State.updMc_lands (s : State) (m : Fin 12) (f : Mc → Mc) : (s.updMc m f).lands = s.lands := rfl
@[simp] theorem State.updMc_rcv (s : State) (m : Fin 12) (f : Mc → Mc) : (s.updMc m f).rcv = s.rcv := rfl
@[simp] theorem State.updMc_mgmt (s : State) (m : Fin 12) (f : Mc → Mc) : (s.updMc m f).mgmt = s.mgmt := rfl
@[simp] theorem State.updMc_fuses (s : State) (m : Fin 12) (f : Mc → Mc) : (s.updMc m f).fuses = s.fuses := rfl
@[simp] theorem State.updMc_flash (s : State) (m : Fin 12) (f : Mc → Mc) : (s.updMc m f).flash = s.flash := rfl

@[simp] theorem State.bump_pending (s : State) : (s.bump).pending = s.pending := rfl
@[simp] theorem State.bump_freeCtr (s : State) : (s.bump).freeCtr = s.freeCtr + 1 := rfl
@[simp] theorem State.bump_time (s : State) : (s.bump).time = s.time := rfl
@[simp] theorem State.bump_device (s : State) : (s.bump).device = s.device := rfl
@[simp] theorem State.bump_parts (s : State) : (s.bump).parts = s.parts := rfl
@[simp] theorem State.bump_cores (s : State) : (s.bump).cores = s.cores := rfl
@[simp] theorem State.bump_clus (s : State) : (s.bump).clus = s.clus := rfl
@[simp] theorem State.bump_sram (s : State) : (s.bump).sram = s.sram := rfl
@[simp] theorem State.bump_sramPoison (s : State) : (s.bump).sramPoison = s.sramPoison := rfl
@[simp] theorem State.bump_qins (s : State) : (s.bump).qins = s.qins := rfl
@[simp] theorem State.bump_qouts (s : State) : (s.bump).qouts = s.qouts := rfl
@[simp] theorem State.bump_dma (s : State) : (s.bump).dma = s.dma := rfl
@[simp] theorem State.bump_memConfig (s : State) : (s.bump).memConfig = s.memConfig := rfl
@[simp] theorem State.bump_hbm (s : State) : (s.bump).hbm = s.hbm := rfl
@[simp] theorem State.bump_mesh (s : State) : (s.bump).mesh = s.mesh := rfl
@[simp] theorem State.bump_wordAfter (s : State) : (s.bump).wordAfter = s.wordAfter := rfl
@[simp] theorem State.bump_words (s : State) : (s.bump).words = s.words := rfl
@[simp] theorem State.bump_reply (s : State) : (s.bump).reply = s.reply := rfl
@[simp] theorem State.bump_fab (s : State) : (s.bump).fab = s.fab := rfl
@[simp] theorem State.bump_licence (s : State) : (s.bump).licence = s.licence := rfl
@[simp] theorem State.bump_host (s : State) : (s.bump).host = s.host := rfl
@[simp] theorem State.bump_power (s : State) : (s.bump).power = s.power := rfl
@[simp] theorem State.bump_clocks (s : State) : (s.bump).clocks = s.clocks := rfl
@[simp] theorem State.bump_boot (s : State) : (s.bump).boot = s.boot := rfl
@[simp] theorem State.bump_lands (s : State) : (s.bump).lands = s.lands := rfl
@[simp] theorem State.bump_rcv (s : State) : (s.bump).rcv = s.rcv := rfl
@[simp] theorem State.bump_mgmt (s : State) : (s.bump).mgmt = s.mgmt := rfl
@[simp] theorem State.bump_fuses (s : State) : (s.bump).fuses = s.fuses := rfl
@[simp] theorem State.bump_flash (s : State) : (s.bump).flash = s.flash := rfl

@[simp] theorem State.respond_pending (s : State) (t : Nat) (m : Bool × BitVec 32 × BitVec 64) (c : Code) (b : List Word) : (s.respond t m c b).pending = s.pending := rfl
@[simp] theorem State.respond_freeCtr (s : State) (t : Nat) (m : Bool × BitVec 32 × BitVec 64) (c : Code) (b : List Word) : (s.respond t m c b).freeCtr = s.freeCtr := rfl
@[simp] theorem State.respond_time (s : State) (t : Nat) (m : Bool × BitVec 32 × BitVec 64) (c : Code) (b : List Word) : (s.respond t m c b).time = s.time := rfl
@[simp] theorem State.respond_device (s : State) (t : Nat) (m : Bool × BitVec 32 × BitVec 64) (c : Code) (b : List Word) : (s.respond t m c b).device = s.device := rfl
@[simp] theorem State.respond_parts (s : State) (t : Nat) (m : Bool × BitVec 32 × BitVec 64) (c : Code) (b : List Word) : (s.respond t m c b).parts = s.parts := rfl
@[simp] theorem State.respond_cores (s : State) (t : Nat) (m : Bool × BitVec 32 × BitVec 64) (c : Code) (b : List Word) : (s.respond t m c b).cores = s.cores := rfl
@[simp] theorem State.respond_clus (s : State) (t : Nat) (m : Bool × BitVec 32 × BitVec 64) (c : Code) (b : List Word) : (s.respond t m c b).clus = s.clus := rfl
@[simp] theorem State.respond_sram (s : State) (t : Nat) (m : Bool × BitVec 32 × BitVec 64) (c : Code) (b : List Word) : (s.respond t m c b).sram = s.sram := rfl
@[simp] theorem State.respond_sramPoison (s : State) (t : Nat) (m : Bool × BitVec 32 × BitVec 64) (c : Code) (b : List Word) : (s.respond t m c b).sramPoison = s.sramPoison := rfl
@[simp] theorem State.respond_qins (s : State) (t : Nat) (m : Bool × BitVec 32 × BitVec 64) (c : Code) (b : List Word) : (s.respond t m c b).qins = s.qins := rfl
@[simp] theorem State.respond_qouts (s : State) (t : Nat) (m : Bool × BitVec 32 × BitVec 64) (c : Code) (b : List Word) : (s.respond t m c b).qouts = s.qouts := rfl
@[simp] theorem State.respond_dma (s : State) (t : Nat) (m : Bool × BitVec 32 × BitVec 64) (c : Code) (b : List Word) : (s.respond t m c b).dma = s.dma := rfl
@[simp] theorem State.respond_memConfig (s : State) (t : Nat) (m : Bool × BitVec 32 × BitVec 64) (c : Code) (b : List Word) : (s.respond t m c b).memConfig = s.memConfig := rfl
@[simp] theorem State.respond_hbm (s : State) (t : Nat) (m : Bool × BitVec 32 × BitVec 64) (c : Code) (b : List Word) : (s.respond t m c b).hbm = s.hbm := rfl
@[simp] theorem State.respond_mesh (s : State) (t : Nat) (m : Bool × BitVec 32 × BitVec 64) (c : Code) (b : List Word) : (s.respond t m c b).mesh = s.mesh := rfl
@[simp] theorem State.respond_wordAfter (s : State) (t : Nat) (m : Bool × BitVec 32 × BitVec 64) (c : Code) (b : List Word) : (s.respond t m c b).wordAfter = s.wordAfter := rfl
@[simp] theorem State.respond_words (s : State) (t : Nat) (m : Bool × BitVec 32 × BitVec 64) (c : Code) (b : List Word) : (s.respond t m c b).words = s.words := rfl
@[simp] theorem State.respond_reply (s : State) (t : Nat) (m : Bool × BitVec 32 × BitVec 64) (c : Code) (b : List Word) : (s.respond t m c b).reply = s.reply := rfl
@[simp] theorem State.respond_fab (s : State) (t : Nat) (m : Bool × BitVec 32 × BitVec 64) (c : Code) (b : List Word) : (s.respond t m c b).fab = s.fab := rfl
@[simp] theorem State.respond_licence (s : State) (t : Nat) (m : Bool × BitVec 32 × BitVec 64) (c : Code) (b : List Word) : (s.respond t m c b).licence = s.licence := rfl
@[simp] theorem State.respond_host (s : State) (t : Nat) (m : Bool × BitVec 32 × BitVec 64) (c : Code) (b : List Word) : (s.respond t m c b).host = s.host := rfl
@[simp] theorem State.respond_power (s : State) (t : Nat) (m : Bool × BitVec 32 × BitVec 64) (c : Code) (b : List Word) : (s.respond t m c b).power = s.power := rfl
@[simp] theorem State.respond_clocks (s : State) (t : Nat) (m : Bool × BitVec 32 × BitVec 64) (c : Code) (b : List Word) : (s.respond t m c b).clocks = s.clocks := rfl
@[simp] theorem State.respond_boot (s : State) (t : Nat) (m : Bool × BitVec 32 × BitVec 64) (c : Code) (b : List Word) : (s.respond t m c b).boot = s.boot := rfl
@[simp] theorem State.respond_lands (s : State) (t : Nat) (m : Bool × BitVec 32 × BitVec 64) (c : Code) (b : List Word) : (s.respond t m c b).lands = s.lands := rfl
@[simp] theorem State.respond_rcv (s : State) (t : Nat) (m : Bool × BitVec 32 × BitVec 64) (c : Code) (b : List Word) : (s.respond t m c b).rcv = s.rcv := rfl
@[simp] theorem State.respond_fuses (s : State) (t : Nat) (m : Bool × BitVec 32 × BitVec 64) (c : Code) (b : List Word) : (s.respond t m c b).fuses = s.fuses := rfl
@[simp] theorem State.respond_flash (s : State) (t : Nat) (m : Bool × BitVec 32 × BitVec 64) (c : Code) (b : List Word) : (s.respond t m c b).flash = s.flash := rfl

@[simp] theorem State.escalate_pending (s : State) (l : Nat) (p : PartNo) (k : BitVec 10) (c : Code) : (s.escalate l p k c).pending = s.pending := rfl
@[simp] theorem State.escalate_freeCtr (s : State) (l : Nat) (p : PartNo) (k : BitVec 10) (c : Code) : (s.escalate l p k c).freeCtr = s.freeCtr := rfl
@[simp] theorem State.escalate_time (s : State) (l : Nat) (p : PartNo) (k : BitVec 10) (c : Code) : (s.escalate l p k c).time = s.time := rfl
@[simp] theorem State.escalate_device (s : State) (l : Nat) (p : PartNo) (k : BitVec 10) (c : Code) : (s.escalate l p k c).device = s.device := rfl
@[simp] theorem State.escalate_parts (s : State) (l : Nat) (p : PartNo) (k : BitVec 10) (c : Code) : (s.escalate l p k c).parts = s.parts := rfl
@[simp] theorem State.escalate_cores (s : State) (l : Nat) (p : PartNo) (k : BitVec 10) (c : Code) : (s.escalate l p k c).cores = s.cores := rfl
@[simp] theorem State.escalate_clus (s : State) (l : Nat) (p : PartNo) (k : BitVec 10) (c : Code) : (s.escalate l p k c).clus = s.clus := rfl
@[simp] theorem State.escalate_sram (s : State) (l : Nat) (p : PartNo) (k : BitVec 10) (c : Code) : (s.escalate l p k c).sram = s.sram := rfl
@[simp] theorem State.escalate_sramPoison (s : State) (l : Nat) (p : PartNo) (k : BitVec 10) (c : Code) : (s.escalate l p k c).sramPoison = s.sramPoison := rfl
@[simp] theorem State.escalate_qins (s : State) (l : Nat) (p : PartNo) (k : BitVec 10) (c : Code) : (s.escalate l p k c).qins = s.qins := rfl
@[simp] theorem State.escalate_qouts (s : State) (l : Nat) (p : PartNo) (k : BitVec 10) (c : Code) : (s.escalate l p k c).qouts = s.qouts := rfl
@[simp] theorem State.escalate_dma (s : State) (l : Nat) (p : PartNo) (k : BitVec 10) (c : Code) : (s.escalate l p k c).dma = s.dma := rfl
@[simp] theorem State.escalate_memConfig (s : State) (l : Nat) (p : PartNo) (k : BitVec 10) (c : Code) : (s.escalate l p k c).memConfig = s.memConfig := rfl
@[simp] theorem State.escalate_hbm (s : State) (l : Nat) (p : PartNo) (k : BitVec 10) (c : Code) : (s.escalate l p k c).hbm = s.hbm := rfl
@[simp] theorem State.escalate_mesh (s : State) (l : Nat) (p : PartNo) (k : BitVec 10) (c : Code) : (s.escalate l p k c).mesh = s.mesh := rfl
@[simp] theorem State.escalate_wordAfter (s : State) (l : Nat) (p : PartNo) (k : BitVec 10) (c : Code) : (s.escalate l p k c).wordAfter = s.wordAfter := rfl
@[simp] theorem State.escalate_words (s : State) (l : Nat) (p : PartNo) (k : BitVec 10) (c : Code) : (s.escalate l p k c).words = s.words := rfl
@[simp] theorem State.escalate_reply (s : State) (l : Nat) (p : PartNo) (k : BitVec 10) (c : Code) : (s.escalate l p k c).reply = s.reply := rfl
@[simp] theorem State.escalate_fab (s : State) (l : Nat) (p : PartNo) (k : BitVec 10) (c : Code) : (s.escalate l p k c).fab = s.fab := rfl
@[simp] theorem State.escalate_licence (s : State) (l : Nat) (p : PartNo) (k : BitVec 10) (c : Code) : (s.escalate l p k c).licence = s.licence := rfl
@[simp] theorem State.escalate_host (s : State) (l : Nat) (p : PartNo) (k : BitVec 10) (c : Code) : (s.escalate l p k c).host = s.host := rfl
@[simp] theorem State.escalate_power (s : State) (l : Nat) (p : PartNo) (k : BitVec 10) (c : Code) : (s.escalate l p k c).power = s.power := rfl
@[simp] theorem State.escalate_clocks (s : State) (l : Nat) (p : PartNo) (k : BitVec 10) (c : Code) : (s.escalate l p k c).clocks = s.clocks := rfl
@[simp] theorem State.escalate_boot (s : State) (l : Nat) (p : PartNo) (k : BitVec 10) (c : Code) : (s.escalate l p k c).boot = s.boot := rfl
@[simp] theorem State.escalate_lands (s : State) (l : Nat) (p : PartNo) (k : BitVec 10) (c : Code) : (s.escalate l p k c).lands = s.lands := rfl
@[simp] theorem State.escalate_mgmt (s : State) (l : Nat) (p : PartNo) (k : BitVec 10) (c : Code) : (s.escalate l p k c).mgmt = s.mgmt := rfl
@[simp] theorem State.escalate_fuses (s : State) (l : Nat) (p : PartNo) (k : BitVec 10) (c : Code) : (s.escalate l p k c).fuses = s.fuses := rfl
@[simp] theorem State.escalate_flash (s : State) (l : Nat) (p : PartNo) (k : BitVec 10) (c : Code) : (s.escalate l p k c).flash = s.flash := rfl

@[simp] theorem State.logDefect_pending (s : State) (e : DefectEntry) : (s.logDefect e).pending = s.pending := rfl
@[simp] theorem State.logDefect_freeCtr (s : State) (e : DefectEntry) : (s.logDefect e).freeCtr = s.freeCtr := rfl
@[simp] theorem State.logDefect_time (s : State) (e : DefectEntry) : (s.logDefect e).time = s.time := rfl
@[simp] theorem State.logDefect_device (s : State) (e : DefectEntry) : (s.logDefect e).device = s.device := rfl
@[simp] theorem State.logDefect_parts (s : State) (e : DefectEntry) : (s.logDefect e).parts = s.parts := rfl
@[simp] theorem State.logDefect_cores (s : State) (e : DefectEntry) : (s.logDefect e).cores = s.cores := rfl
@[simp] theorem State.logDefect_clus (s : State) (e : DefectEntry) : (s.logDefect e).clus = s.clus := rfl
@[simp] theorem State.logDefect_sram (s : State) (e : DefectEntry) : (s.logDefect e).sram = s.sram := rfl
@[simp] theorem State.logDefect_sramPoison (s : State) (e : DefectEntry) : (s.logDefect e).sramPoison = s.sramPoison := rfl
@[simp] theorem State.logDefect_qins (s : State) (e : DefectEntry) : (s.logDefect e).qins = s.qins := rfl
@[simp] theorem State.logDefect_qouts (s : State) (e : DefectEntry) : (s.logDefect e).qouts = s.qouts := rfl
@[simp] theorem State.logDefect_dma (s : State) (e : DefectEntry) : (s.logDefect e).dma = s.dma := rfl
@[simp] theorem State.logDefect_memConfig (s : State) (e : DefectEntry) : (s.logDefect e).memConfig = s.memConfig := rfl
@[simp] theorem State.logDefect_hbm (s : State) (e : DefectEntry) : (s.logDefect e).hbm = s.hbm := rfl
@[simp] theorem State.logDefect_mesh (s : State) (e : DefectEntry) : (s.logDefect e).mesh = s.mesh := rfl
@[simp] theorem State.logDefect_wordAfter (s : State) (e : DefectEntry) : (s.logDefect e).wordAfter = s.wordAfter := rfl
@[simp] theorem State.logDefect_words (s : State) (e : DefectEntry) : (s.logDefect e).words = s.words := rfl
@[simp] theorem State.logDefect_reply (s : State) (e : DefectEntry) : (s.logDefect e).reply = s.reply := rfl
@[simp] theorem State.logDefect_fab (s : State) (e : DefectEntry) : (s.logDefect e).fab = s.fab := rfl
@[simp] theorem State.logDefect_licence (s : State) (e : DefectEntry) : (s.logDefect e).licence = s.licence := rfl
@[simp] theorem State.logDefect_host (s : State) (e : DefectEntry) : (s.logDefect e).host = s.host := rfl
@[simp] theorem State.logDefect_power (s : State) (e : DefectEntry) : (s.logDefect e).power = s.power := rfl
@[simp] theorem State.logDefect_clocks (s : State) (e : DefectEntry) : (s.logDefect e).clocks = s.clocks := rfl
@[simp] theorem State.logDefect_boot (s : State) (e : DefectEntry) : (s.logDefect e).boot = s.boot := rfl
@[simp] theorem State.logDefect_lands (s : State) (e : DefectEntry) : (s.logDefect e).lands = s.lands := rfl
@[simp] theorem State.logDefect_rcv (s : State) (e : DefectEntry) : (s.logDefect e).rcv = s.rcv := rfl
@[simp] theorem State.logDefect_mgmt (s : State) (e : DefectEntry) : (s.logDefect e).mgmt = s.mgmt := rfl
@[simp] theorem State.logDefect_fuses (s : State) (e : DefectEntry) : (s.logDefect e).fuses = s.fuses := rfl

@[simp] theorem State.writeSram_pending (s : State) (a : Nat) (bs : List Byte) : (s.writeSram a bs).pending = s.pending := rfl
@[simp] theorem State.writeSram_freeCtr (s : State) (a : Nat) (bs : List Byte) : (s.writeSram a bs).freeCtr = s.freeCtr := rfl
@[simp] theorem State.writeSram_time (s : State) (a : Nat) (bs : List Byte) : (s.writeSram a bs).time = s.time := rfl
@[simp] theorem State.writeSram_device (s : State) (a : Nat) (bs : List Byte) : (s.writeSram a bs).device = s.device := rfl
@[simp] theorem State.writeSram_parts (s : State) (a : Nat) (bs : List Byte) : (s.writeSram a bs).parts = s.parts := rfl
@[simp] theorem State.writeSram_cores (s : State) (a : Nat) (bs : List Byte) : (s.writeSram a bs).cores = s.cores := rfl
@[simp] theorem State.writeSram_clus (s : State) (a : Nat) (bs : List Byte) : (s.writeSram a bs).clus = s.clus := rfl
@[simp] theorem State.writeSram_qins (s : State) (a : Nat) (bs : List Byte) : (s.writeSram a bs).qins = s.qins := rfl
@[simp] theorem State.writeSram_qouts (s : State) (a : Nat) (bs : List Byte) : (s.writeSram a bs).qouts = s.qouts := rfl
@[simp] theorem State.writeSram_dma (s : State) (a : Nat) (bs : List Byte) : (s.writeSram a bs).dma = s.dma := rfl
@[simp] theorem State.writeSram_memConfig (s : State) (a : Nat) (bs : List Byte) : (s.writeSram a bs).memConfig = s.memConfig := rfl
@[simp] theorem State.writeSram_hbm (s : State) (a : Nat) (bs : List Byte) : (s.writeSram a bs).hbm = s.hbm := rfl
@[simp] theorem State.writeSram_mesh (s : State) (a : Nat) (bs : List Byte) : (s.writeSram a bs).mesh = s.mesh := rfl
@[simp] theorem State.writeSram_wordAfter (s : State) (a : Nat) (bs : List Byte) : (s.writeSram a bs).wordAfter = s.wordAfter := rfl
@[simp] theorem State.writeSram_words (s : State) (a : Nat) (bs : List Byte) : (s.writeSram a bs).words = s.words := rfl
@[simp] theorem State.writeSram_reply (s : State) (a : Nat) (bs : List Byte) : (s.writeSram a bs).reply = s.reply := rfl
@[simp] theorem State.writeSram_fab (s : State) (a : Nat) (bs : List Byte) : (s.writeSram a bs).fab = s.fab := rfl
@[simp] theorem State.writeSram_licence (s : State) (a : Nat) (bs : List Byte) : (s.writeSram a bs).licence = s.licence := rfl
@[simp] theorem State.writeSram_host (s : State) (a : Nat) (bs : List Byte) : (s.writeSram a bs).host = s.host := rfl
@[simp] theorem State.writeSram_power (s : State) (a : Nat) (bs : List Byte) : (s.writeSram a bs).power = s.power := rfl
@[simp] theorem State.writeSram_clocks (s : State) (a : Nat) (bs : List Byte) : (s.writeSram a bs).clocks = s.clocks := rfl
@[simp] theorem State.writeSram_boot (s : State) (a : Nat) (bs : List Byte) : (s.writeSram a bs).boot = s.boot := rfl
@[simp] theorem State.writeSram_lands (s : State) (a : Nat) (bs : List Byte) : (s.writeSram a bs).lands = s.lands := rfl
@[simp] theorem State.writeSram_rcv (s : State) (a : Nat) (bs : List Byte) : (s.writeSram a bs).rcv = s.rcv := rfl
@[simp] theorem State.writeSram_mgmt (s : State) (a : Nat) (bs : List Byte) : (s.writeSram a bs).mgmt = s.mgmt := rfl
@[simp] theorem State.writeSram_fuses (s : State) (a : Nat) (bs : List Byte) : (s.writeSram a bs).fuses = s.fuses := rfl
@[simp] theorem State.writeSram_flash (s : State) (a : Nat) (bs : List Byte) : (s.writeSram a bs).flash = s.flash := rfl

@[simp] theorem State.poisonLine_pending (s : State) (l : Nat) : (s.poisonLine l).pending = s.pending := rfl
@[simp] theorem State.poisonLine_time (s : State) (l : Nat) : (s.poisonLine l).time = s.time := rfl
@[simp] theorem State.poisonLine_device (s : State) (l : Nat) : (s.poisonLine l).device = s.device := rfl
@[simp] theorem State.poisonLine_parts (s : State) (l : Nat) : (s.poisonLine l).parts = s.parts := rfl
@[simp] theorem State.poisonLine_cores (s : State) (l : Nat) : (s.poisonLine l).cores = s.cores := rfl
@[simp] theorem State.poisonLine_clus (s : State) (l : Nat) : (s.poisonLine l).clus = s.clus := rfl
@[simp] theorem State.poisonLine_qins (s : State) (l : Nat) : (s.poisonLine l).qins = s.qins := rfl
@[simp] theorem State.poisonLine_qouts (s : State) (l : Nat) : (s.poisonLine l).qouts = s.qouts := rfl
@[simp] theorem State.poisonLine_dma (s : State) (l : Nat) : (s.poisonLine l).dma = s.dma := rfl
@[simp] theorem State.poisonLine_memConfig (s : State) (l : Nat) : (s.poisonLine l).memConfig = s.memConfig := rfl
@[simp] theorem State.poisonLine_hbm (s : State) (l : Nat) : (s.poisonLine l).hbm = s.hbm := rfl
@[simp] theorem State.poisonLine_mesh (s : State) (l : Nat) : (s.poisonLine l).mesh = s.mesh := rfl
@[simp] theorem State.poisonLine_wordAfter (s : State) (l : Nat) : (s.poisonLine l).wordAfter = s.wordAfter := rfl
@[simp] theorem State.poisonLine_words (s : State) (l : Nat) : (s.poisonLine l).words = s.words := rfl
@[simp] theorem State.poisonLine_reply (s : State) (l : Nat) : (s.poisonLine l).reply = s.reply := rfl
@[simp] theorem State.poisonLine_fab (s : State) (l : Nat) : (s.poisonLine l).fab = s.fab := rfl
@[simp] theorem State.poisonLine_licence (s : State) (l : Nat) : (s.poisonLine l).licence = s.licence := rfl
@[simp] theorem State.poisonLine_host (s : State) (l : Nat) : (s.poisonLine l).host = s.host := rfl
@[simp] theorem State.poisonLine_power (s : State) (l : Nat) : (s.poisonLine l).power = s.power := rfl
@[simp] theorem State.poisonLine_clocks (s : State) (l : Nat) : (s.poisonLine l).clocks = s.clocks := rfl
@[simp] theorem State.poisonLine_boot (s : State) (l : Nat) : (s.poisonLine l).boot = s.boot := rfl
@[simp] theorem State.poisonLine_lands (s : State) (l : Nat) : (s.poisonLine l).lands = s.lands := rfl
@[simp] theorem State.poisonLine_rcv (s : State) (l : Nat) : (s.poisonLine l).rcv = s.rcv := rfl
@[simp] theorem State.poisonLine_mgmt (s : State) (l : Nat) : (s.poisonLine l).mgmt = s.mgmt := rfl
@[simp] theorem State.poisonLine_fuses (s : State) (l : Nat) : (s.poisonLine l).fuses = s.fuses := rfl
@[simp] theorem State.poisonLine_flash (s : State) (l : Nat) : (s.poisonLine l).flash = s.flash := rfl

@[simp] theorem State.zeroSram_pending (s : State) (a n : Nat) : (s.zeroSram a n).pending = s.pending := rfl
@[simp] theorem State.zeroSram_freeCtr (s : State) (a n : Nat) : (s.zeroSram a n).freeCtr = s.freeCtr := rfl
@[simp] theorem State.zeroSram_time (s : State) (a n : Nat) : (s.zeroSram a n).time = s.time := rfl
@[simp] theorem State.zeroSram_device (s : State) (a n : Nat) : (s.zeroSram a n).device = s.device := rfl
@[simp] theorem State.zeroSram_parts (s : State) (a n : Nat) : (s.zeroSram a n).parts = s.parts := rfl
@[simp] theorem State.zeroSram_cores (s : State) (a n : Nat) : (s.zeroSram a n).cores = s.cores := rfl
@[simp] theorem State.zeroSram_clus (s : State) (a n : Nat) : (s.zeroSram a n).clus = s.clus := rfl
@[simp] theorem State.zeroSram_qins (s : State) (a n : Nat) : (s.zeroSram a n).qins = s.qins := rfl
@[simp] theorem State.zeroSram_qouts (s : State) (a n : Nat) : (s.zeroSram a n).qouts = s.qouts := rfl
@[simp] theorem State.zeroSram_dma (s : State) (a n : Nat) : (s.zeroSram a n).dma = s.dma := rfl
@[simp] theorem State.zeroSram_memConfig (s : State) (a n : Nat) : (s.zeroSram a n).memConfig = s.memConfig := rfl
@[simp] theorem State.zeroSram_hbm (s : State) (a n : Nat) : (s.zeroSram a n).hbm = s.hbm := rfl
@[simp] theorem State.zeroSram_mesh (s : State) (a n : Nat) : (s.zeroSram a n).mesh = s.mesh := rfl
@[simp] theorem State.zeroSram_wordAfter (s : State) (a n : Nat) : (s.zeroSram a n).wordAfter = s.wordAfter := rfl
@[simp] theorem State.zeroSram_words (s : State) (a n : Nat) : (s.zeroSram a n).words = s.words := rfl
@[simp] theorem State.zeroSram_reply (s : State) (a n : Nat) : (s.zeroSram a n).reply = s.reply := rfl
@[simp] theorem State.zeroSram_fab (s : State) (a n : Nat) : (s.zeroSram a n).fab = s.fab := rfl
@[simp] theorem State.zeroSram_licence (s : State) (a n : Nat) : (s.zeroSram a n).licence = s.licence := rfl
@[simp] theorem State.zeroSram_host (s : State) (a n : Nat) : (s.zeroSram a n).host = s.host := rfl
@[simp] theorem State.zeroSram_power (s : State) (a n : Nat) : (s.zeroSram a n).power = s.power := rfl
@[simp] theorem State.zeroSram_clocks (s : State) (a n : Nat) : (s.zeroSram a n).clocks = s.clocks := rfl
@[simp] theorem State.zeroSram_boot (s : State) (a n : Nat) : (s.zeroSram a n).boot = s.boot := rfl
@[simp] theorem State.zeroSram_lands (s : State) (a n : Nat) : (s.zeroSram a n).lands = s.lands := rfl
@[simp] theorem State.zeroSram_rcv (s : State) (a n : Nat) : (s.zeroSram a n).rcv = s.rcv := rfl
@[simp] theorem State.zeroSram_mgmt (s : State) (a n : Nat) : (s.zeroSram a n).mgmt = s.mgmt := rfl
@[simp] theorem State.zeroSram_fuses (s : State) (a n : Nat) : (s.zeroSram a n).fuses = s.fuses := rfl
@[simp] theorem State.zeroSram_flash (s : State) (a n : Nat) : (s.zeroSram a n).flash = s.flash := rfl

@[simp] theorem State.setMailbox_pending (s : State) (mb : MbId) (x : Mailbox) : (s.setMailbox mb x).pending = s.pending := rfl
@[simp] theorem State.setMailbox_freeCtr (s : State) (mb : MbId) (x : Mailbox) : (s.setMailbox mb x).freeCtr = s.freeCtr := rfl
@[simp] theorem State.setMailbox_time (s : State) (mb : MbId) (x : Mailbox) : (s.setMailbox mb x).time = s.time := rfl
@[simp] theorem State.setMailbox_device (s : State) (mb : MbId) (x : Mailbox) : (s.setMailbox mb x).device = s.device := rfl
@[simp] theorem State.setMailbox_parts (s : State) (mb : MbId) (x : Mailbox) : (s.setMailbox mb x).parts = s.parts := rfl
@[simp] theorem State.setMailbox_cores (s : State) (mb : MbId) (x : Mailbox) : (s.setMailbox mb x).cores = s.cores := rfl
@[simp] theorem State.setMailbox_clus (s : State) (mb : MbId) (x : Mailbox) : (s.setMailbox mb x).clus = s.clus := rfl
@[simp] theorem State.setMailbox_sram (s : State) (mb : MbId) (x : Mailbox) : (s.setMailbox mb x).sram = s.sram := rfl
@[simp] theorem State.setMailbox_sramPoison (s : State) (mb : MbId) (x : Mailbox) : (s.setMailbox mb x).sramPoison = s.sramPoison := rfl
@[simp] theorem State.setMailbox_qins (s : State) (mb : MbId) (x : Mailbox) : (s.setMailbox mb x).qins = s.qins := rfl
@[simp] theorem State.setMailbox_qouts (s : State) (mb : MbId) (x : Mailbox) : (s.setMailbox mb x).qouts = s.qouts := rfl
@[simp] theorem State.setMailbox_dma (s : State) (mb : MbId) (x : Mailbox) : (s.setMailbox mb x).dma = s.dma := rfl
@[simp] theorem State.setMailbox_memConfig (s : State) (mb : MbId) (x : Mailbox) : (s.setMailbox mb x).memConfig = s.memConfig := rfl
@[simp] theorem State.setMailbox_hbm (s : State) (mb : MbId) (x : Mailbox) : (s.setMailbox mb x).hbm = s.hbm := rfl
@[simp] theorem State.setMailbox_mesh (s : State) (mb : MbId) (x : Mailbox) : (s.setMailbox mb x).mesh = s.mesh := rfl
@[simp] theorem State.setMailbox_wordAfter (s : State) (mb : MbId) (x : Mailbox) : (s.setMailbox mb x).wordAfter = s.wordAfter := rfl
@[simp] theorem State.setMailbox_words (s : State) (mb : MbId) (x : Mailbox) : (s.setMailbox mb x).words = s.words := rfl
@[simp] theorem State.setMailbox_reply (s : State) (mb : MbId) (x : Mailbox) : (s.setMailbox mb x).reply = s.reply := rfl
@[simp] theorem State.setMailbox_fab (s : State) (mb : MbId) (x : Mailbox) : (s.setMailbox mb x).fab = s.fab := rfl
@[simp] theorem State.setMailbox_licence (s : State) (mb : MbId) (x : Mailbox) : (s.setMailbox mb x).licence = s.licence := rfl
@[simp] theorem State.setMailbox_power (s : State) (mb : MbId) (x : Mailbox) : (s.setMailbox mb x).power = s.power := rfl
@[simp] theorem State.setMailbox_clocks (s : State) (mb : MbId) (x : Mailbox) : (s.setMailbox mb x).clocks = s.clocks := rfl
@[simp] theorem State.setMailbox_boot (s : State) (mb : MbId) (x : Mailbox) : (s.setMailbox mb x).boot = s.boot := rfl
@[simp] theorem State.setMailbox_lands (s : State) (mb : MbId) (x : Mailbox) : (s.setMailbox mb x).lands = s.lands := rfl
@[simp] theorem State.setMailbox_rcv (s : State) (mb : MbId) (x : Mailbox) : (s.setMailbox mb x).rcv = s.rcv := rfl
@[simp] theorem State.setMailbox_mgmt (s : State) (mb : MbId) (x : Mailbox) : (s.setMailbox mb x).mgmt = s.mgmt := rfl
@[simp] theorem State.setMailbox_fuses (s : State) (mb : MbId) (x : Mailbox) : (s.setMailbox mb x).fuses = s.fuses := rfl
@[simp] theorem State.setMailbox_flash (s : State) (mb : MbId) (x : Mailbox) : (s.setMailbox mb x).flash = s.flash := rfl

@[simp] theorem State.setLink_pending (s : State) (n : Fin 20) (x : Link) : (s.setLink n x).pending = s.pending := rfl
@[simp] theorem State.setLink_freeCtr (s : State) (n : Fin 20) (x : Link) : (s.setLink n x).freeCtr = s.freeCtr := rfl
@[simp] theorem State.setLink_time (s : State) (n : Fin 20) (x : Link) : (s.setLink n x).time = s.time := rfl
@[simp] theorem State.setLink_device (s : State) (n : Fin 20) (x : Link) : (s.setLink n x).device = s.device := rfl
@[simp] theorem State.setLink_parts (s : State) (n : Fin 20) (x : Link) : (s.setLink n x).parts = s.parts := rfl
@[simp] theorem State.setLink_cores (s : State) (n : Fin 20) (x : Link) : (s.setLink n x).cores = s.cores := rfl
@[simp] theorem State.setLink_clus (s : State) (n : Fin 20) (x : Link) : (s.setLink n x).clus = s.clus := rfl
@[simp] theorem State.setLink_sram (s : State) (n : Fin 20) (x : Link) : (s.setLink n x).sram = s.sram := rfl
@[simp] theorem State.setLink_sramPoison (s : State) (n : Fin 20) (x : Link) : (s.setLink n x).sramPoison = s.sramPoison := rfl
@[simp] theorem State.setLink_qins (s : State) (n : Fin 20) (x : Link) : (s.setLink n x).qins = s.qins := rfl
@[simp] theorem State.setLink_qouts (s : State) (n : Fin 20) (x : Link) : (s.setLink n x).qouts = s.qouts := rfl
@[simp] theorem State.setLink_dma (s : State) (n : Fin 20) (x : Link) : (s.setLink n x).dma = s.dma := rfl
@[simp] theorem State.setLink_memConfig (s : State) (n : Fin 20) (x : Link) : (s.setLink n x).memConfig = s.memConfig := rfl
@[simp] theorem State.setLink_hbm (s : State) (n : Fin 20) (x : Link) : (s.setLink n x).hbm = s.hbm := rfl
@[simp] theorem State.setLink_mesh (s : State) (n : Fin 20) (x : Link) : (s.setLink n x).mesh = s.mesh := rfl
@[simp] theorem State.setLink_wordAfter (s : State) (n : Fin 20) (x : Link) : (s.setLink n x).wordAfter = s.wordAfter := rfl
@[simp] theorem State.setLink_words (s : State) (n : Fin 20) (x : Link) : (s.setLink n x).words = s.words := rfl
@[simp] theorem State.setLink_reply (s : State) (n : Fin 20) (x : Link) : (s.setLink n x).reply = s.reply := rfl
@[simp] theorem State.setLink_licence (s : State) (n : Fin 20) (x : Link) : (s.setLink n x).licence = s.licence := rfl
@[simp] theorem State.setLink_host (s : State) (n : Fin 20) (x : Link) : (s.setLink n x).host = s.host := rfl
@[simp] theorem State.setLink_power (s : State) (n : Fin 20) (x : Link) : (s.setLink n x).power = s.power := rfl
@[simp] theorem State.setLink_clocks (s : State) (n : Fin 20) (x : Link) : (s.setLink n x).clocks = s.clocks := rfl
@[simp] theorem State.setLink_boot (s : State) (n : Fin 20) (x : Link) : (s.setLink n x).boot = s.boot := rfl
@[simp] theorem State.setLink_lands (s : State) (n : Fin 20) (x : Link) : (s.setLink n x).lands = s.lands := rfl
@[simp] theorem State.setLink_rcv (s : State) (n : Fin 20) (x : Link) : (s.setLink n x).rcv = s.rcv := rfl
@[simp] theorem State.setLink_mgmt (s : State) (n : Fin 20) (x : Link) : (s.setLink n x).mgmt = s.mgmt := rfl
@[simp] theorem State.setLink_fuses (s : State) (n : Fin 20) (x : Link) : (s.setLink n x).fuses = s.fuses := rfl
@[simp] theorem State.setLink_flash (s : State) (n : Fin 20) (x : Link) : (s.setLink n x).flash = s.flash := rfl

@[simp] theorem State.updLink_pending (s : State) (n : Fin 20) (f : Link → Link) : (s.updLink n f).pending = s.pending := rfl
@[simp] theorem State.updLink_freeCtr (s : State) (n : Fin 20) (f : Link → Link) : (s.updLink n f).freeCtr = s.freeCtr := rfl
@[simp] theorem State.updLink_time (s : State) (n : Fin 20) (f : Link → Link) : (s.updLink n f).time = s.time := rfl
@[simp] theorem State.updLink_device (s : State) (n : Fin 20) (f : Link → Link) : (s.updLink n f).device = s.device := rfl
@[simp] theorem State.updLink_parts (s : State) (n : Fin 20) (f : Link → Link) : (s.updLink n f).parts = s.parts := rfl
@[simp] theorem State.updLink_cores (s : State) (n : Fin 20) (f : Link → Link) : (s.updLink n f).cores = s.cores := rfl
@[simp] theorem State.updLink_clus (s : State) (n : Fin 20) (f : Link → Link) : (s.updLink n f).clus = s.clus := rfl
@[simp] theorem State.updLink_sram (s : State) (n : Fin 20) (f : Link → Link) : (s.updLink n f).sram = s.sram := rfl
@[simp] theorem State.updLink_sramPoison (s : State) (n : Fin 20) (f : Link → Link) : (s.updLink n f).sramPoison = s.sramPoison := rfl
@[simp] theorem State.updLink_qins (s : State) (n : Fin 20) (f : Link → Link) : (s.updLink n f).qins = s.qins := rfl
@[simp] theorem State.updLink_qouts (s : State) (n : Fin 20) (f : Link → Link) : (s.updLink n f).qouts = s.qouts := rfl
@[simp] theorem State.updLink_dma (s : State) (n : Fin 20) (f : Link → Link) : (s.updLink n f).dma = s.dma := rfl
@[simp] theorem State.updLink_memConfig (s : State) (n : Fin 20) (f : Link → Link) : (s.updLink n f).memConfig = s.memConfig := rfl
@[simp] theorem State.updLink_hbm (s : State) (n : Fin 20) (f : Link → Link) : (s.updLink n f).hbm = s.hbm := rfl
@[simp] theorem State.updLink_mesh (s : State) (n : Fin 20) (f : Link → Link) : (s.updLink n f).mesh = s.mesh := rfl
@[simp] theorem State.updLink_wordAfter (s : State) (n : Fin 20) (f : Link → Link) : (s.updLink n f).wordAfter = s.wordAfter := rfl
@[simp] theorem State.updLink_words (s : State) (n : Fin 20) (f : Link → Link) : (s.updLink n f).words = s.words := rfl
@[simp] theorem State.updLink_reply (s : State) (n : Fin 20) (f : Link → Link) : (s.updLink n f).reply = s.reply := rfl
@[simp] theorem State.updLink_licence (s : State) (n : Fin 20) (f : Link → Link) : (s.updLink n f).licence = s.licence := rfl
@[simp] theorem State.updLink_host (s : State) (n : Fin 20) (f : Link → Link) : (s.updLink n f).host = s.host := rfl
@[simp] theorem State.updLink_power (s : State) (n : Fin 20) (f : Link → Link) : (s.updLink n f).power = s.power := rfl
@[simp] theorem State.updLink_clocks (s : State) (n : Fin 20) (f : Link → Link) : (s.updLink n f).clocks = s.clocks := rfl
@[simp] theorem State.updLink_boot (s : State) (n : Fin 20) (f : Link → Link) : (s.updLink n f).boot = s.boot := rfl
@[simp] theorem State.updLink_lands (s : State) (n : Fin 20) (f : Link → Link) : (s.updLink n f).lands = s.lands := rfl
@[simp] theorem State.updLink_rcv (s : State) (n : Fin 20) (f : Link → Link) : (s.updLink n f).rcv = s.rcv := rfl
@[simp] theorem State.updLink_mgmt (s : State) (n : Fin 20) (f : Link → Link) : (s.updLink n f).mgmt = s.mgmt := rfl
@[simp] theorem State.updLink_fuses (s : State) (n : Fin 20) (f : Link → Link) : (s.updLink n f).fuses = s.fuses := rfl
@[simp] theorem State.updLink_flash (s : State) (n : Fin 20) (f : Link → Link) : (s.updLink n f).flash = s.flash := rfl

@[simp] theorem State.setPool_pending (s : State) (k : Nat) (x : List (Pkt × Bool)) : (s.setPool k x).pending = s.pending := rfl
@[simp] theorem State.setPool_freeCtr (s : State) (k : Nat) (x : List (Pkt × Bool)) : (s.setPool k x).freeCtr = s.freeCtr := rfl
@[simp] theorem State.setPool_time (s : State) (k : Nat) (x : List (Pkt × Bool)) : (s.setPool k x).time = s.time := rfl
@[simp] theorem State.setPool_device (s : State) (k : Nat) (x : List (Pkt × Bool)) : (s.setPool k x).device = s.device := rfl
@[simp] theorem State.setPool_parts (s : State) (k : Nat) (x : List (Pkt × Bool)) : (s.setPool k x).parts = s.parts := rfl
@[simp] theorem State.setPool_cores (s : State) (k : Nat) (x : List (Pkt × Bool)) : (s.setPool k x).cores = s.cores := rfl
@[simp] theorem State.setPool_clus (s : State) (k : Nat) (x : List (Pkt × Bool)) : (s.setPool k x).clus = s.clus := rfl
@[simp] theorem State.setPool_sram (s : State) (k : Nat) (x : List (Pkt × Bool)) : (s.setPool k x).sram = s.sram := rfl
@[simp] theorem State.setPool_sramPoison (s : State) (k : Nat) (x : List (Pkt × Bool)) : (s.setPool k x).sramPoison = s.sramPoison := rfl
@[simp] theorem State.setPool_qins (s : State) (k : Nat) (x : List (Pkt × Bool)) : (s.setPool k x).qins = s.qins := rfl
@[simp] theorem State.setPool_qouts (s : State) (k : Nat) (x : List (Pkt × Bool)) : (s.setPool k x).qouts = s.qouts := rfl
@[simp] theorem State.setPool_dma (s : State) (k : Nat) (x : List (Pkt × Bool)) : (s.setPool k x).dma = s.dma := rfl
@[simp] theorem State.setPool_memConfig (s : State) (k : Nat) (x : List (Pkt × Bool)) : (s.setPool k x).memConfig = s.memConfig := rfl
@[simp] theorem State.setPool_hbm (s : State) (k : Nat) (x : List (Pkt × Bool)) : (s.setPool k x).hbm = s.hbm := rfl
@[simp] theorem State.setPool_mesh (s : State) (k : Nat) (x : List (Pkt × Bool)) : (s.setPool k x).mesh = s.mesh := rfl
@[simp] theorem State.setPool_wordAfter (s : State) (k : Nat) (x : List (Pkt × Bool)) : (s.setPool k x).wordAfter = s.wordAfter := rfl
@[simp] theorem State.setPool_words (s : State) (k : Nat) (x : List (Pkt × Bool)) : (s.setPool k x).words = s.words := rfl
@[simp] theorem State.setPool_reply (s : State) (k : Nat) (x : List (Pkt × Bool)) : (s.setPool k x).reply = s.reply := rfl
@[simp] theorem State.setPool_licence (s : State) (k : Nat) (x : List (Pkt × Bool)) : (s.setPool k x).licence = s.licence := rfl
@[simp] theorem State.setPool_host (s : State) (k : Nat) (x : List (Pkt × Bool)) : (s.setPool k x).host = s.host := rfl
@[simp] theorem State.setPool_power (s : State) (k : Nat) (x : List (Pkt × Bool)) : (s.setPool k x).power = s.power := rfl
@[simp] theorem State.setPool_clocks (s : State) (k : Nat) (x : List (Pkt × Bool)) : (s.setPool k x).clocks = s.clocks := rfl
@[simp] theorem State.setPool_boot (s : State) (k : Nat) (x : List (Pkt × Bool)) : (s.setPool k x).boot = s.boot := rfl
@[simp] theorem State.setPool_lands (s : State) (k : Nat) (x : List (Pkt × Bool)) : (s.setPool k x).lands = s.lands := rfl
@[simp] theorem State.setPool_rcv (s : State) (k : Nat) (x : List (Pkt × Bool)) : (s.setPool k x).rcv = s.rcv := rfl
@[simp] theorem State.setPool_mgmt (s : State) (k : Nat) (x : List (Pkt × Bool)) : (s.setPool k x).mgmt = s.mgmt := rfl
@[simp] theorem State.setPool_fuses (s : State) (k : Nat) (x : List (Pkt × Bool)) : (s.setPool k x).fuses = s.fuses := rfl
@[simp] theorem State.setPool_flash (s : State) (k : Nat) (x : List (Pkt × Bool)) : (s.setPool k x).flash = s.flash := rfl

@[simp] theorem State.setReply_pending (s : State) (p : PartNo) (u : BitVec 16) (n : Nat) (x : ReplySlot) : (s.setReply p u n x).pending = s.pending := rfl
@[simp] theorem State.setReply_freeCtr (s : State) (p : PartNo) (u : BitVec 16) (n : Nat) (x : ReplySlot) : (s.setReply p u n x).freeCtr = s.freeCtr := rfl
@[simp] theorem State.setReply_time (s : State) (p : PartNo) (u : BitVec 16) (n : Nat) (x : ReplySlot) : (s.setReply p u n x).time = s.time := rfl
@[simp] theorem State.setReply_device (s : State) (p : PartNo) (u : BitVec 16) (n : Nat) (x : ReplySlot) : (s.setReply p u n x).device = s.device := rfl
@[simp] theorem State.setReply_parts (s : State) (p : PartNo) (u : BitVec 16) (n : Nat) (x : ReplySlot) : (s.setReply p u n x).parts = s.parts := rfl
@[simp] theorem State.setReply_cores (s : State) (p : PartNo) (u : BitVec 16) (n : Nat) (x : ReplySlot) : (s.setReply p u n x).cores = s.cores := rfl
@[simp] theorem State.setReply_clus (s : State) (p : PartNo) (u : BitVec 16) (n : Nat) (x : ReplySlot) : (s.setReply p u n x).clus = s.clus := rfl
@[simp] theorem State.setReply_sram (s : State) (p : PartNo) (u : BitVec 16) (n : Nat) (x : ReplySlot) : (s.setReply p u n x).sram = s.sram := rfl
@[simp] theorem State.setReply_sramPoison (s : State) (p : PartNo) (u : BitVec 16) (n : Nat) (x : ReplySlot) : (s.setReply p u n x).sramPoison = s.sramPoison := rfl
@[simp] theorem State.setReply_qins (s : State) (p : PartNo) (u : BitVec 16) (n : Nat) (x : ReplySlot) : (s.setReply p u n x).qins = s.qins := rfl
@[simp] theorem State.setReply_qouts (s : State) (p : PartNo) (u : BitVec 16) (n : Nat) (x : ReplySlot) : (s.setReply p u n x).qouts = s.qouts := rfl
@[simp] theorem State.setReply_dma (s : State) (p : PartNo) (u : BitVec 16) (n : Nat) (x : ReplySlot) : (s.setReply p u n x).dma = s.dma := rfl
@[simp] theorem State.setReply_memConfig (s : State) (p : PartNo) (u : BitVec 16) (n : Nat) (x : ReplySlot) : (s.setReply p u n x).memConfig = s.memConfig := rfl
@[simp] theorem State.setReply_hbm (s : State) (p : PartNo) (u : BitVec 16) (n : Nat) (x : ReplySlot) : (s.setReply p u n x).hbm = s.hbm := rfl
@[simp] theorem State.setReply_mesh (s : State) (p : PartNo) (u : BitVec 16) (n : Nat) (x : ReplySlot) : (s.setReply p u n x).mesh = s.mesh := rfl
@[simp] theorem State.setReply_wordAfter (s : State) (p : PartNo) (u : BitVec 16) (n : Nat) (x : ReplySlot) : (s.setReply p u n x).wordAfter = s.wordAfter := rfl
@[simp] theorem State.setReply_words (s : State) (p : PartNo) (u : BitVec 16) (n : Nat) (x : ReplySlot) : (s.setReply p u n x).words = s.words := rfl
@[simp] theorem State.setReply_reply (s : State) (p : PartNo) (u : BitVec 16) (n : Nat) (x : ReplySlot) : (s.setReply p u n x).reply = Table.set {} s.reply (replyKey p u n) x := rfl
@[simp] theorem State.setReply_fab (s : State) (p : PartNo) (u : BitVec 16) (n : Nat) (x : ReplySlot) : (s.setReply p u n x).fab = s.fab := rfl
@[simp] theorem State.setReply_licence (s : State) (p : PartNo) (u : BitVec 16) (n : Nat) (x : ReplySlot) : (s.setReply p u n x).licence = s.licence := rfl
@[simp] theorem State.setReply_host (s : State) (p : PartNo) (u : BitVec 16) (n : Nat) (x : ReplySlot) : (s.setReply p u n x).host = s.host := rfl
@[simp] theorem State.setReply_power (s : State) (p : PartNo) (u : BitVec 16) (n : Nat) (x : ReplySlot) : (s.setReply p u n x).power = s.power := rfl
@[simp] theorem State.setReply_clocks (s : State) (p : PartNo) (u : BitVec 16) (n : Nat) (x : ReplySlot) : (s.setReply p u n x).clocks = s.clocks := rfl
@[simp] theorem State.setReply_boot (s : State) (p : PartNo) (u : BitVec 16) (n : Nat) (x : ReplySlot) : (s.setReply p u n x).boot = s.boot := rfl
@[simp] theorem State.setReply_lands (s : State) (p : PartNo) (u : BitVec 16) (n : Nat) (x : ReplySlot) : (s.setReply p u n x).lands = s.lands := rfl
@[simp] theorem State.setReply_rcv (s : State) (p : PartNo) (u : BitVec 16) (n : Nat) (x : ReplySlot) : (s.setReply p u n x).rcv = s.rcv := rfl
@[simp] theorem State.setReply_mgmt (s : State) (p : PartNo) (u : BitVec 16) (n : Nat) (x : ReplySlot) : (s.setReply p u n x).mgmt = s.mgmt := rfl
@[simp] theorem State.setReply_fuses (s : State) (p : PartNo) (u : BitVec 16) (n : Nat) (x : ReplySlot) : (s.setReply p u n x).fuses = s.fuses := rfl
@[simp] theorem State.setReply_flash (s : State) (p : PartNo) (u : BitVec 16) (n : Nat) (x : ReplySlot) : (s.setReply p u n x).flash = s.flash := rfl

@[simp] theorem State.setMeta_pending (s : State) (k : Nat) (m : Meta) : (s.setMeta k m).pending = s.pending := rfl
@[simp] theorem State.setMeta_freeCtr (s : State) (k : Nat) (m : Meta) : (s.setMeta k m).freeCtr = s.freeCtr := rfl
@[simp] theorem State.setMeta_time (s : State) (k : Nat) (m : Meta) : (s.setMeta k m).time = s.time := rfl
@[simp] theorem State.setMeta_device (s : State) (k : Nat) (m : Meta) : (s.setMeta k m).device = s.device := rfl
@[simp] theorem State.setMeta_parts (s : State) (k : Nat) (m : Meta) : (s.setMeta k m).parts = s.parts := rfl
@[simp] theorem State.setMeta_cores (s : State) (k : Nat) (m : Meta) : (s.setMeta k m).cores = s.cores := rfl
@[simp] theorem State.setMeta_clus (s : State) (k : Nat) (m : Meta) : (s.setMeta k m).clus = s.clus := rfl
@[simp] theorem State.setMeta_sram (s : State) (k : Nat) (m : Meta) : (s.setMeta k m).sram = s.sram := rfl
@[simp] theorem State.setMeta_sramPoison (s : State) (k : Nat) (m : Meta) : (s.setMeta k m).sramPoison = s.sramPoison := rfl
@[simp] theorem State.setMeta_qins (s : State) (k : Nat) (m : Meta) : (s.setMeta k m).qins = s.qins := rfl
@[simp] theorem State.setMeta_qouts (s : State) (k : Nat) (m : Meta) : (s.setMeta k m).qouts = s.qouts := rfl
@[simp] theorem State.setMeta_dma (s : State) (k : Nat) (m : Meta) : (s.setMeta k m).dma = s.dma := rfl
@[simp] theorem State.setMeta_memConfig (s : State) (k : Nat) (m : Meta) : (s.setMeta k m).memConfig = s.memConfig := rfl
@[simp] theorem State.setMeta_mesh (s : State) (k : Nat) (m : Meta) : (s.setMeta k m).mesh = s.mesh := rfl
@[simp] theorem State.setMeta_wordAfter (s : State) (k : Nat) (m : Meta) : (s.setMeta k m).wordAfter = s.wordAfter := rfl
@[simp] theorem State.setMeta_words (s : State) (k : Nat) (m : Meta) : (s.setMeta k m).words = s.words := rfl
@[simp] theorem State.setMeta_reply (s : State) (k : Nat) (m : Meta) : (s.setMeta k m).reply = s.reply := rfl
@[simp] theorem State.setMeta_fab (s : State) (k : Nat) (m : Meta) : (s.setMeta k m).fab = s.fab := rfl
@[simp] theorem State.setMeta_licence (s : State) (k : Nat) (m : Meta) : (s.setMeta k m).licence = s.licence := rfl
@[simp] theorem State.setMeta_host (s : State) (k : Nat) (m : Meta) : (s.setMeta k m).host = s.host := rfl
@[simp] theorem State.setMeta_power (s : State) (k : Nat) (m : Meta) : (s.setMeta k m).power = s.power := rfl
@[simp] theorem State.setMeta_clocks (s : State) (k : Nat) (m : Meta) : (s.setMeta k m).clocks = s.clocks := rfl
@[simp] theorem State.setMeta_boot (s : State) (k : Nat) (m : Meta) : (s.setMeta k m).boot = s.boot := rfl
@[simp] theorem State.setMeta_lands (s : State) (k : Nat) (m : Meta) : (s.setMeta k m).lands = s.lands := rfl
@[simp] theorem State.setMeta_rcv (s : State) (k : Nat) (m : Meta) : (s.setMeta k m).rcv = s.rcv := rfl
@[simp] theorem State.setMeta_mgmt (s : State) (k : Nat) (m : Meta) : (s.setMeta k m).mgmt = s.mgmt := rfl
@[simp] theorem State.setMeta_fuses (s : State) (k : Nat) (m : Meta) : (s.setMeta k m).fuses = s.fuses := rfl
@[simp] theorem State.setMeta_flash (s : State) (k : Nat) (m : Meta) : (s.setMeta k m).flash = s.flash := rfl

@[simp] theorem State.setGranule_pending (s : State) (k : Nat) (bs : List Byte) : (s.setGranule k bs).pending = s.pending := rfl
@[simp] theorem State.setGranule_freeCtr (s : State) (k : Nat) (bs : List Byte) : (s.setGranule k bs).freeCtr = s.freeCtr := rfl
@[simp] theorem State.setGranule_time (s : State) (k : Nat) (bs : List Byte) : (s.setGranule k bs).time = s.time := rfl
@[simp] theorem State.setGranule_device (s : State) (k : Nat) (bs : List Byte) : (s.setGranule k bs).device = s.device := rfl
@[simp] theorem State.setGranule_parts (s : State) (k : Nat) (bs : List Byte) : (s.setGranule k bs).parts = s.parts := rfl
@[simp] theorem State.setGranule_cores (s : State) (k : Nat) (bs : List Byte) : (s.setGranule k bs).cores = s.cores := rfl
@[simp] theorem State.setGranule_clus (s : State) (k : Nat) (bs : List Byte) : (s.setGranule k bs).clus = s.clus := rfl
@[simp] theorem State.setGranule_sram (s : State) (k : Nat) (bs : List Byte) : (s.setGranule k bs).sram = s.sram := rfl
@[simp] theorem State.setGranule_sramPoison (s : State) (k : Nat) (bs : List Byte) : (s.setGranule k bs).sramPoison = s.sramPoison := rfl
@[simp] theorem State.setGranule_qins (s : State) (k : Nat) (bs : List Byte) : (s.setGranule k bs).qins = s.qins := rfl
@[simp] theorem State.setGranule_qouts (s : State) (k : Nat) (bs : List Byte) : (s.setGranule k bs).qouts = s.qouts := rfl
@[simp] theorem State.setGranule_dma (s : State) (k : Nat) (bs : List Byte) : (s.setGranule k bs).dma = s.dma := rfl
@[simp] theorem State.setGranule_memConfig (s : State) (k : Nat) (bs : List Byte) : (s.setGranule k bs).memConfig = s.memConfig := rfl
@[simp] theorem State.setGranule_mesh (s : State) (k : Nat) (bs : List Byte) : (s.setGranule k bs).mesh = s.mesh := rfl
@[simp] theorem State.setGranule_wordAfter (s : State) (k : Nat) (bs : List Byte) : (s.setGranule k bs).wordAfter = s.wordAfter := rfl
@[simp] theorem State.setGranule_words (s : State) (k : Nat) (bs : List Byte) : (s.setGranule k bs).words = s.words := rfl
@[simp] theorem State.setGranule_reply (s : State) (k : Nat) (bs : List Byte) : (s.setGranule k bs).reply = s.reply := rfl
@[simp] theorem State.setGranule_fab (s : State) (k : Nat) (bs : List Byte) : (s.setGranule k bs).fab = s.fab := rfl
@[simp] theorem State.setGranule_licence (s : State) (k : Nat) (bs : List Byte) : (s.setGranule k bs).licence = s.licence := rfl
@[simp] theorem State.setGranule_host (s : State) (k : Nat) (bs : List Byte) : (s.setGranule k bs).host = s.host := rfl
@[simp] theorem State.setGranule_power (s : State) (k : Nat) (bs : List Byte) : (s.setGranule k bs).power = s.power := rfl
@[simp] theorem State.setGranule_clocks (s : State) (k : Nat) (bs : List Byte) : (s.setGranule k bs).clocks = s.clocks := rfl
@[simp] theorem State.setGranule_boot (s : State) (k : Nat) (bs : List Byte) : (s.setGranule k bs).boot = s.boot := rfl
@[simp] theorem State.setGranule_lands (s : State) (k : Nat) (bs : List Byte) : (s.setGranule k bs).lands = s.lands := rfl
@[simp] theorem State.setGranule_rcv (s : State) (k : Nat) (bs : List Byte) : (s.setGranule k bs).rcv = s.rcv := rfl
@[simp] theorem State.setGranule_mgmt (s : State) (k : Nat) (bs : List Byte) : (s.setGranule k bs).mgmt = s.mgmt := rfl
@[simp] theorem State.setGranule_fuses (s : State) (k : Nat) (bs : List Byte) : (s.setGranule k bs).fuses = s.fuses := rfl
@[simp] theorem State.setGranule_flash (s : State) (k : Nat) (bs : List Byte) : (s.setGranule k bs).flash = s.flash := rfl

@[simp] theorem State.updPower_pending (s : State) (f : Power → Power) : (s.updPower f).pending = s.pending := rfl
@[simp] theorem State.updPower_freeCtr (s : State) (f : Power → Power) : (s.updPower f).freeCtr = s.freeCtr := rfl
@[simp] theorem State.updPower_time (s : State) (f : Power → Power) : (s.updPower f).time = s.time := rfl
@[simp] theorem State.updPower_device (s : State) (f : Power → Power) : (s.updPower f).device = s.device := rfl
@[simp] theorem State.updPower_parts (s : State) (f : Power → Power) : (s.updPower f).parts = s.parts := rfl
@[simp] theorem State.updPower_cores (s : State) (f : Power → Power) : (s.updPower f).cores = s.cores := rfl
@[simp] theorem State.updPower_clus (s : State) (f : Power → Power) : (s.updPower f).clus = s.clus := rfl
@[simp] theorem State.updPower_sram (s : State) (f : Power → Power) : (s.updPower f).sram = s.sram := rfl
@[simp] theorem State.updPower_sramPoison (s : State) (f : Power → Power) : (s.updPower f).sramPoison = s.sramPoison := rfl
@[simp] theorem State.updPower_qins (s : State) (f : Power → Power) : (s.updPower f).qins = s.qins := rfl
@[simp] theorem State.updPower_qouts (s : State) (f : Power → Power) : (s.updPower f).qouts = s.qouts := rfl
@[simp] theorem State.updPower_dma (s : State) (f : Power → Power) : (s.updPower f).dma = s.dma := rfl
@[simp] theorem State.updPower_memConfig (s : State) (f : Power → Power) : (s.updPower f).memConfig = s.memConfig := rfl
@[simp] theorem State.updPower_hbm (s : State) (f : Power → Power) : (s.updPower f).hbm = s.hbm := rfl
@[simp] theorem State.updPower_mesh (s : State) (f : Power → Power) : (s.updPower f).mesh = s.mesh := rfl
@[simp] theorem State.updPower_wordAfter (s : State) (f : Power → Power) : (s.updPower f).wordAfter = s.wordAfter := rfl
@[simp] theorem State.updPower_words (s : State) (f : Power → Power) : (s.updPower f).words = s.words := rfl
@[simp] theorem State.updPower_reply (s : State) (f : Power → Power) : (s.updPower f).reply = s.reply := rfl
@[simp] theorem State.updPower_fab (s : State) (f : Power → Power) : (s.updPower f).fab = s.fab := rfl
@[simp] theorem State.updPower_licence (s : State) (f : Power → Power) : (s.updPower f).licence = s.licence := rfl
@[simp] theorem State.updPower_host (s : State) (f : Power → Power) : (s.updPower f).host = s.host := rfl
@[simp] theorem State.updPower_power (s : State) (f : Power → Power) : (s.updPower f).power = f s.power := rfl
@[simp] theorem State.updPower_clocks (s : State) (f : Power → Power) : (s.updPower f).clocks = s.clocks := rfl
@[simp] theorem State.updPower_boot (s : State) (f : Power → Power) : (s.updPower f).boot = s.boot := rfl
@[simp] theorem State.updPower_lands (s : State) (f : Power → Power) : (s.updPower f).lands = s.lands := rfl
@[simp] theorem State.updPower_rcv (s : State) (f : Power → Power) : (s.updPower f).rcv = s.rcv := rfl
@[simp] theorem State.updPower_mgmt (s : State) (f : Power → Power) : (s.updPower f).mgmt = s.mgmt := rfl
@[simp] theorem State.updPower_fuses (s : State) (f : Power → Power) : (s.updPower f).fuses = s.fuses := rfl
@[simp] theorem State.updPower_flash (s : State) (f : Power → Power) : (s.updPower f).flash = s.flash := rfl

@[simp] theorem State.updClocks_pending (s : State) (f : Clocks → Clocks) : (s.updClocks f).pending = s.pending := rfl
@[simp] theorem State.updClocks_freeCtr (s : State) (f : Clocks → Clocks) : (s.updClocks f).freeCtr = s.freeCtr := rfl
@[simp] theorem State.updClocks_time (s : State) (f : Clocks → Clocks) : (s.updClocks f).time = s.time := rfl
@[simp] theorem State.updClocks_device (s : State) (f : Clocks → Clocks) : (s.updClocks f).device = s.device := rfl
@[simp] theorem State.updClocks_parts (s : State) (f : Clocks → Clocks) : (s.updClocks f).parts = s.parts := rfl
@[simp] theorem State.updClocks_cores (s : State) (f : Clocks → Clocks) : (s.updClocks f).cores = s.cores := rfl
@[simp] theorem State.updClocks_clus (s : State) (f : Clocks → Clocks) : (s.updClocks f).clus = s.clus := rfl
@[simp] theorem State.updClocks_sram (s : State) (f : Clocks → Clocks) : (s.updClocks f).sram = s.sram := rfl
@[simp] theorem State.updClocks_sramPoison (s : State) (f : Clocks → Clocks) : (s.updClocks f).sramPoison = s.sramPoison := rfl
@[simp] theorem State.updClocks_qins (s : State) (f : Clocks → Clocks) : (s.updClocks f).qins = s.qins := rfl
@[simp] theorem State.updClocks_qouts (s : State) (f : Clocks → Clocks) : (s.updClocks f).qouts = s.qouts := rfl
@[simp] theorem State.updClocks_dma (s : State) (f : Clocks → Clocks) : (s.updClocks f).dma = s.dma := rfl
@[simp] theorem State.updClocks_memConfig (s : State) (f : Clocks → Clocks) : (s.updClocks f).memConfig = s.memConfig := rfl
@[simp] theorem State.updClocks_hbm (s : State) (f : Clocks → Clocks) : (s.updClocks f).hbm = s.hbm := rfl
@[simp] theorem State.updClocks_mesh (s : State) (f : Clocks → Clocks) : (s.updClocks f).mesh = s.mesh := rfl
@[simp] theorem State.updClocks_wordAfter (s : State) (f : Clocks → Clocks) : (s.updClocks f).wordAfter = s.wordAfter := rfl
@[simp] theorem State.updClocks_words (s : State) (f : Clocks → Clocks) : (s.updClocks f).words = s.words := rfl
@[simp] theorem State.updClocks_reply (s : State) (f : Clocks → Clocks) : (s.updClocks f).reply = s.reply := rfl
@[simp] theorem State.updClocks_fab (s : State) (f : Clocks → Clocks) : (s.updClocks f).fab = s.fab := rfl
@[simp] theorem State.updClocks_licence (s : State) (f : Clocks → Clocks) : (s.updClocks f).licence = s.licence := rfl
@[simp] theorem State.updClocks_host (s : State) (f : Clocks → Clocks) : (s.updClocks f).host = s.host := rfl
@[simp] theorem State.updClocks_power (s : State) (f : Clocks → Clocks) : (s.updClocks f).power = s.power := rfl
@[simp] theorem State.updClocks_clocks (s : State) (f : Clocks → Clocks) : (s.updClocks f).clocks = f s.clocks := rfl
@[simp] theorem State.updClocks_boot (s : State) (f : Clocks → Clocks) : (s.updClocks f).boot = s.boot := rfl
@[simp] theorem State.updClocks_lands (s : State) (f : Clocks → Clocks) : (s.updClocks f).lands = s.lands := rfl
@[simp] theorem State.updClocks_rcv (s : State) (f : Clocks → Clocks) : (s.updClocks f).rcv = s.rcv := rfl
@[simp] theorem State.updClocks_mgmt (s : State) (f : Clocks → Clocks) : (s.updClocks f).mgmt = s.mgmt := rfl
@[simp] theorem State.updClocks_fuses (s : State) (f : Clocks → Clocks) : (s.updClocks f).fuses = s.fuses := rfl
@[simp] theorem State.updClocks_flash (s : State) (f : Clocks → Clocks) : (s.updClocks f).flash = s.flash := rfl

@[simp] theorem State.updBoot_pending (s : State) (f : Boot → Boot) : (s.updBoot f).pending = s.pending := rfl
@[simp] theorem State.updBoot_freeCtr (s : State) (f : Boot → Boot) : (s.updBoot f).freeCtr = s.freeCtr := rfl
@[simp] theorem State.updBoot_time (s : State) (f : Boot → Boot) : (s.updBoot f).time = s.time := rfl
@[simp] theorem State.updBoot_device (s : State) (f : Boot → Boot) : (s.updBoot f).device = s.device := rfl
@[simp] theorem State.updBoot_parts (s : State) (f : Boot → Boot) : (s.updBoot f).parts = s.parts := rfl
@[simp] theorem State.updBoot_cores (s : State) (f : Boot → Boot) : (s.updBoot f).cores = s.cores := rfl
@[simp] theorem State.updBoot_clus (s : State) (f : Boot → Boot) : (s.updBoot f).clus = s.clus := rfl
@[simp] theorem State.updBoot_sram (s : State) (f : Boot → Boot) : (s.updBoot f).sram = s.sram := rfl
@[simp] theorem State.updBoot_sramPoison (s : State) (f : Boot → Boot) : (s.updBoot f).sramPoison = s.sramPoison := rfl
@[simp] theorem State.updBoot_qins (s : State) (f : Boot → Boot) : (s.updBoot f).qins = s.qins := rfl
@[simp] theorem State.updBoot_qouts (s : State) (f : Boot → Boot) : (s.updBoot f).qouts = s.qouts := rfl
@[simp] theorem State.updBoot_dma (s : State) (f : Boot → Boot) : (s.updBoot f).dma = s.dma := rfl
@[simp] theorem State.updBoot_memConfig (s : State) (f : Boot → Boot) : (s.updBoot f).memConfig = s.memConfig := rfl
@[simp] theorem State.updBoot_hbm (s : State) (f : Boot → Boot) : (s.updBoot f).hbm = s.hbm := rfl
@[simp] theorem State.updBoot_mesh (s : State) (f : Boot → Boot) : (s.updBoot f).mesh = s.mesh := rfl
@[simp] theorem State.updBoot_wordAfter (s : State) (f : Boot → Boot) : (s.updBoot f).wordAfter = s.wordAfter := rfl
@[simp] theorem State.updBoot_words (s : State) (f : Boot → Boot) : (s.updBoot f).words = s.words := rfl
@[simp] theorem State.updBoot_reply (s : State) (f : Boot → Boot) : (s.updBoot f).reply = s.reply := rfl
@[simp] theorem State.updBoot_fab (s : State) (f : Boot → Boot) : (s.updBoot f).fab = s.fab := rfl
@[simp] theorem State.updBoot_licence (s : State) (f : Boot → Boot) : (s.updBoot f).licence = s.licence := rfl
@[simp] theorem State.updBoot_host (s : State) (f : Boot → Boot) : (s.updBoot f).host = s.host := rfl
@[simp] theorem State.updBoot_power (s : State) (f : Boot → Boot) : (s.updBoot f).power = s.power := rfl
@[simp] theorem State.updBoot_clocks (s : State) (f : Boot → Boot) : (s.updBoot f).clocks = s.clocks := rfl
@[simp] theorem State.updBoot_boot (s : State) (f : Boot → Boot) : (s.updBoot f).boot = f s.boot := rfl
@[simp] theorem State.updBoot_lands (s : State) (f : Boot → Boot) : (s.updBoot f).lands = s.lands := rfl
@[simp] theorem State.updBoot_rcv (s : State) (f : Boot → Boot) : (s.updBoot f).rcv = s.rcv := rfl
@[simp] theorem State.updBoot_mgmt (s : State) (f : Boot → Boot) : (s.updBoot f).mgmt = s.mgmt := rfl
@[simp] theorem State.updBoot_fuses (s : State) (f : Boot → Boot) : (s.updBoot f).fuses = s.fuses := rfl
@[simp] theorem State.updBoot_flash (s : State) (f : Boot → Boot) : (s.updBoot f).flash = s.flash := rfl

@[simp] theorem State.updLands_pending (s : State) (f : Lands → Lands) : (s.updLands f).pending = s.pending := rfl
@[simp] theorem State.updLands_freeCtr (s : State) (f : Lands → Lands) : (s.updLands f).freeCtr = s.freeCtr := rfl
@[simp] theorem State.updLands_time (s : State) (f : Lands → Lands) : (s.updLands f).time = s.time := rfl
@[simp] theorem State.updLands_device (s : State) (f : Lands → Lands) : (s.updLands f).device = s.device := rfl
@[simp] theorem State.updLands_parts (s : State) (f : Lands → Lands) : (s.updLands f).parts = s.parts := rfl
@[simp] theorem State.updLands_cores (s : State) (f : Lands → Lands) : (s.updLands f).cores = s.cores := rfl
@[simp] theorem State.updLands_clus (s : State) (f : Lands → Lands) : (s.updLands f).clus = s.clus := rfl
@[simp] theorem State.updLands_sram (s : State) (f : Lands → Lands) : (s.updLands f).sram = s.sram := rfl
@[simp] theorem State.updLands_sramPoison (s : State) (f : Lands → Lands) : (s.updLands f).sramPoison = s.sramPoison := rfl
@[simp] theorem State.updLands_qins (s : State) (f : Lands → Lands) : (s.updLands f).qins = s.qins := rfl
@[simp] theorem State.updLands_qouts (s : State) (f : Lands → Lands) : (s.updLands f).qouts = s.qouts := rfl
@[simp] theorem State.updLands_dma (s : State) (f : Lands → Lands) : (s.updLands f).dma = s.dma := rfl
@[simp] theorem State.updLands_memConfig (s : State) (f : Lands → Lands) : (s.updLands f).memConfig = s.memConfig := rfl
@[simp] theorem State.updLands_hbm (s : State) (f : Lands → Lands) : (s.updLands f).hbm = s.hbm := rfl
@[simp] theorem State.updLands_mesh (s : State) (f : Lands → Lands) : (s.updLands f).mesh = s.mesh := rfl
@[simp] theorem State.updLands_wordAfter (s : State) (f : Lands → Lands) : (s.updLands f).wordAfter = s.wordAfter := rfl
@[simp] theorem State.updLands_words (s : State) (f : Lands → Lands) : (s.updLands f).words = s.words := rfl
@[simp] theorem State.updLands_reply (s : State) (f : Lands → Lands) : (s.updLands f).reply = s.reply := rfl
@[simp] theorem State.updLands_fab (s : State) (f : Lands → Lands) : (s.updLands f).fab = s.fab := rfl
@[simp] theorem State.updLands_licence (s : State) (f : Lands → Lands) : (s.updLands f).licence = s.licence := rfl
@[simp] theorem State.updLands_host (s : State) (f : Lands → Lands) : (s.updLands f).host = s.host := rfl
@[simp] theorem State.updLands_power (s : State) (f : Lands → Lands) : (s.updLands f).power = s.power := rfl
@[simp] theorem State.updLands_clocks (s : State) (f : Lands → Lands) : (s.updLands f).clocks = s.clocks := rfl
@[simp] theorem State.updLands_boot (s : State) (f : Lands → Lands) : (s.updLands f).boot = s.boot := rfl
@[simp] theorem State.updLands_lands (s : State) (f : Lands → Lands) : (s.updLands f).lands = f s.lands := rfl
@[simp] theorem State.updLands_rcv (s : State) (f : Lands → Lands) : (s.updLands f).rcv = s.rcv := rfl
@[simp] theorem State.updLands_mgmt (s : State) (f : Lands → Lands) : (s.updLands f).mgmt = s.mgmt := rfl
@[simp] theorem State.updLands_fuses (s : State) (f : Lands → Lands) : (s.updLands f).fuses = s.fuses := rfl
@[simp] theorem State.updLands_flash (s : State) (f : Lands → Lands) : (s.updLands f).flash = s.flash := rfl

@[simp] theorem State.updCp_pending (s : State) (f : CpStatus → CpStatus) : (s.updCp f).pending = s.pending := rfl
@[simp] theorem State.updCp_freeCtr (s : State) (f : CpStatus → CpStatus) : (s.updCp f).freeCtr = s.freeCtr := rfl
@[simp] theorem State.updCp_time (s : State) (f : CpStatus → CpStatus) : (s.updCp f).time = s.time := rfl
@[simp] theorem State.updCp_device (s : State) (f : CpStatus → CpStatus) : (s.updCp f).device = s.device := rfl
@[simp] theorem State.updCp_parts (s : State) (f : CpStatus → CpStatus) : (s.updCp f).parts = s.parts := rfl
@[simp] theorem State.updCp_cores (s : State) (f : CpStatus → CpStatus) : (s.updCp f).cores = s.cores := rfl
@[simp] theorem State.updCp_clus (s : State) (f : CpStatus → CpStatus) : (s.updCp f).clus = s.clus := rfl
@[simp] theorem State.updCp_sram (s : State) (f : CpStatus → CpStatus) : (s.updCp f).sram = s.sram := rfl
@[simp] theorem State.updCp_sramPoison (s : State) (f : CpStatus → CpStatus) : (s.updCp f).sramPoison = s.sramPoison := rfl
@[simp] theorem State.updCp_qins (s : State) (f : CpStatus → CpStatus) : (s.updCp f).qins = s.qins := rfl
@[simp] theorem State.updCp_qouts (s : State) (f : CpStatus → CpStatus) : (s.updCp f).qouts = s.qouts := rfl
@[simp] theorem State.updCp_dma (s : State) (f : CpStatus → CpStatus) : (s.updCp f).dma = s.dma := rfl
@[simp] theorem State.updCp_memConfig (s : State) (f : CpStatus → CpStatus) : (s.updCp f).memConfig = s.memConfig := rfl
@[simp] theorem State.updCp_hbm (s : State) (f : CpStatus → CpStatus) : (s.updCp f).hbm = s.hbm := rfl
@[simp] theorem State.updCp_mesh (s : State) (f : CpStatus → CpStatus) : (s.updCp f).mesh = s.mesh := rfl
@[simp] theorem State.updCp_wordAfter (s : State) (f : CpStatus → CpStatus) : (s.updCp f).wordAfter = s.wordAfter := rfl
@[simp] theorem State.updCp_words (s : State) (f : CpStatus → CpStatus) : (s.updCp f).words = s.words := rfl
@[simp] theorem State.updCp_reply (s : State) (f : CpStatus → CpStatus) : (s.updCp f).reply = s.reply := rfl
@[simp] theorem State.updCp_fab (s : State) (f : CpStatus → CpStatus) : (s.updCp f).fab = s.fab := rfl
@[simp] theorem State.updCp_licence (s : State) (f : CpStatus → CpStatus) : (s.updCp f).licence = s.licence := rfl
@[simp] theorem State.updCp_host (s : State) (f : CpStatus → CpStatus) : (s.updCp f).host = s.host := rfl
@[simp] theorem State.updCp_power (s : State) (f : CpStatus → CpStatus) : (s.updCp f).power = s.power := rfl
@[simp] theorem State.updCp_clocks (s : State) (f : CpStatus → CpStatus) : (s.updCp f).clocks = s.clocks := rfl
@[simp] theorem State.updCp_boot (s : State) (f : CpStatus → CpStatus) : (s.updCp f).boot = s.boot := rfl
@[simp] theorem State.updCp_lands (s : State) (f : CpStatus → CpStatus) : (s.updCp f).lands = s.lands := rfl
@[simp] theorem State.updCp_mgmt (s : State) (f : CpStatus → CpStatus) : (s.updCp f).mgmt = s.mgmt := rfl
@[simp] theorem State.updCp_fuses (s : State) (f : CpStatus → CpStatus) : (s.updCp f).fuses = s.fuses := rfl
@[simp] theorem State.updCp_flash (s : State) (f : CpStatus → CpStatus) : (s.updCp f).flash = s.flash := rfl

end Sys2Proof.Machine
end

