-- ==== Sys2Proof/Laws/Table.lean ====
section
/-! SUPPORT. The laws of sparse tables and byte memories: what a read gives after a write, and that every operation keeps the
canonical form. -/

namespace Sys2Proof

/-! ## Reading after writing -/

theorem Table.get_erase_same {α : Type} (d : α) (t : Table α) (j : Nat) : Table.get d (Table.erase t j) j = d := by
  induction t with
  | nil => rfl
  | cons e t ih =>
    obtain ⟨k, v⟩ := e
    by_cases h : j = k
    · simp [Table.erase, h]; simpa [h] using ih
    · simp [Table.erase, Table.get, h, ih]

theorem Table.get_erase_other {α : Type} (d : α) (t : Table α) {j i : Nat} (h : i ≠ j) :
    Table.get d (Table.erase t j) i = Table.get d t i := by
  induction t with
  | nil => rfl
  | cons e t ih =>
    obtain ⟨k, v⟩ := e
    by_cases hj : j = k
    · have : i ≠ k := hj ▸ h
      simp [Table.erase, Table.get, hj, this]; simpa [hj] using ih
    · simp [Table.erase, Table.get, hj, ih]

theorem Table.get_insert_same {α : Type} (d : α) (t : Table α) (j : Nat) (x : α) : Table.get d (Table.insert t j x) j = x := by
  induction t with
  | nil => simp [Table.insert, Table.get]
  | cons e t ih =>
    obtain ⟨k, v⟩ := e
    simp only [Table.insert]
    split
    · simp [Table.get]
    · split
      · simp [Table.get]
      · rename_i h; simp [Table.get, h, ih]

theorem Table.get_insert_other {α : Type} (d : α) (t : Table α) {j i : Nat} (x : α) (h : i ≠ j) :
    Table.get d (Table.insert t j x) i = Table.get d t i := by
  induction t with
  | nil => simp [Table.insert, Table.get, h]
  | cons e t ih =>
    obtain ⟨k, v⟩ := e
    simp only [Table.insert]
    split
    · simp [Table.get, h]
    · split
      · rename_i hj; have : i ≠ k := hj ▸ h; simp [Table.get, h, this]
      · simp [Table.get, ih]

/-- A key that was set reads as the value it was set to. -/
@[simp] theorem Table.get_set_same {α : Type} [DecidableEq α] (d : α) (t : Table α) (j : Nat) (x : α) :
    Table.get d (Table.set d t j x) j = x := by
  unfold Table.set
  split
  · rename_i h; rw [h]; exact Table.get_erase_same d t j
  · exact Table.get_insert_same d t j x

/-- Setting a key leaves every other key as it was. -/
theorem Table.get_set_other {α : Type} [DecidableEq α] (d : α) (t : Table α) {j i : Nat} (x : α) (h : i ≠ j) :
    Table.get d (Table.set d t j x) i = Table.get d t i := by
  unfold Table.set
  split
  · exact Table.get_erase_other d t h
  · exact Table.get_insert_other d t x h

@[simp] theorem Mem.get_set_same (m : Mem) (a : Nat) (b : Byte) : Mem.get (Mem.set m a b) a = b := Table.get_set_same _ _ _ _

theorem Mem.get_set_other (m : Mem) {a i : Nat} (b : Byte) (h : i ≠ a) : Mem.get (Mem.set m a b) i = Mem.get m i :=
  Table.get_set_other _ _ _ h

/-- A byte outside the range that a write covers is as it was. -/
theorem Mem.get_write_other (bs : List Byte) (m : Mem) (a i : Nat) (h : i < a ∨ a + bs.length ≤ i) :
    Mem.get (Mem.write m a bs) i = Mem.get m i := by
  induction bs generalizing m a with
  | nil => rfl
  | cons b bs ih =>
    simp only [List.length_cons] at h
    rw [Mem.write, ih _ _ (by omega), Mem.get_set_other _ _ (by omega)]

/-- A byte inside the range that a write covers is the byte written. -/
theorem Mem.get_write_same (bs : List Byte) (m : Mem) (a i : Nat) (h : i < bs.length) :
    Mem.get (Mem.write m a bs) (a + i) = bs[i] := by
  induction bs generalizing m a i with
  | nil => simp at h
  | cons b bs ih =>
    rw [Mem.write]
    cases i with
    | zero => rw [Mem.get_write_other _ _ _ _ (by omega)]; simp
    | succ i => rw [show a + (i + 1) = (a + 1) + i by omega]; simpa using ih (Mem.set m a b) (a + 1) i (by simpa using h)

/-- A range that was written reads as what was written. -/
theorem Mem.read_write_same (bs : List Byte) (m : Mem) (a : Nat) : Mem.read (Mem.write m a bs) a bs.length = bs := by
  apply List.ext_getElem
  · simp [Mem.read]
  · intro i h1 h2
    simp only [Mem.read, List.getElem_map, List.getElem_range]
    exact Mem.get_write_same bs m a i h2

/-! ## The canonical form -/

theorem Table.above_mono {α : Type} (t : Table α) {b c : Nat} (h : Table.above t c = true) (hb : b ≤ c) :
    Table.above t b = true := by
  cases t with
  | nil => rfl
  | cons e t => simp [Table.above] at h ⊢; exact ⟨by omega, h.2⟩

theorem Table.above_erase {α : Type} (t : Table α) (j b : Nat) (h : Table.above t b = true) :
    Table.above (Table.erase t j) b = true := by
  induction t generalizing b with
  | nil => rfl
  | cons e t ih =>
    obtain ⟨k, v⟩ := e
    simp [Table.above] at h
    simp only [Table.erase]
    split
    · exact Table.above_mono _ (ih _ h.2) (by omega)
    · simp [Table.above, h.1, ih _ h.2]

theorem Table.above_insert {α : Type} (t : Table α) (j b : Nat) (x : α) (h : Table.above t b = true) (hj : b ≤ j) :
    Table.above (Table.insert t j x) b = true := by
  induction t generalizing b with
  | nil => simp [Table.insert, Table.above, hj]
  | cons e t ih =>
    obtain ⟨k, v⟩ := e
    simp [Table.above] at h
    simp only [Table.insert]
    split
    · simp [Table.above, hj, h.2]; omega
    · split
      · rename_i h2; subst h2; simp [Table.above, h.1, h.2]
      · simp [Table.above, h.1]; exact ih _ h.2 (by omega)

theorem Table.all_erase {α : Type} (p : Nat × α → Bool) (t : Table α) (j : Nat) (h : t.all p = true) :
    (Table.erase t j).all p = true := by
  induction t with
  | nil => rfl
  | cons e t ih =>
    obtain ⟨k, v⟩ := e
    rw [List.all_cons, Bool.and_eq_true] at h
    simp only [Table.erase]
    split
    · exact ih h.2
    · rw [List.all_cons, h.1, ih h.2]; rfl

theorem Table.all_insert {α : Type} (p : Nat × α → Bool) (t : Table α) (j : Nat) (x : α) (h : t.all p = true)
    (hx : p (j, x) = true) : (Table.insert t j x).all p = true := by
  induction t with
  | nil => simp [Table.insert, hx]
  | cons e t ih =>
    obtain ⟨k, v⟩ := e
    simp only [Table.insert]
    split
    · rw [List.all_cons, hx, h]; rfl
    · rw [List.all_cons, Bool.and_eq_true] at h
      split
      · rw [List.all_cons, hx, h.2]; rfl
      · rw [List.all_cons, h.1, ih h.2]; rfl

/-- Setting a key keeps the canonical form. -/
theorem Table.wf_set {α : Type} [DecidableEq α] (d : α) (t : Table α) (j : Nat) (x : α) (h : Table.wf d t = true) :
    Table.wf d (Table.set d t j x) = true := by
  simp only [Table.wf, Bool.and_eq_true] at h ⊢
  unfold Table.set
  split
  · exact ⟨Table.above_erase _ _ _ h.1, Table.all_erase _ _ _ h.2⟩
  · rename_i hx; exact ⟨Table.above_insert _ _ _ _ h.1 (Nat.zero_le _), Table.all_insert _ _ _ _ h.2 (by simp [hx])⟩

theorem Table.above_filter {α : Type} (p : Nat × α → Bool) (t : Table α) (b : Nat) (h : Table.above t b = true) :
    Table.above (t.filter p) b = true := by
  induction t generalizing b with
  | nil => rfl
  | cons e t ih =>
    obtain ⟨k, v⟩ := e
    simp [Table.above] at h
    simp only [List.filter]
    split
    · simp [Table.above, h.1, ih _ h.2]
    · exact Table.above_mono _ (ih _ h.2) (by omega)

/-- Dropping entries keeps the canonical form. -/
theorem Table.wf_filter {α : Type} [DecidableEq α] (d : α) (p : Nat × α → Bool) (t : Table α) (h : Table.wf d t = true) :
    Table.wf d (t.filter p) = true := by
  simp only [Table.wf, Bool.and_eq_true] at h ⊢
  refine ⟨Table.above_filter _ _ _ h.1, ?_⟩
  rw [List.all_eq_true] at h ⊢
  intro e he
  exact h.2 e (List.mem_filter.mp he).1

/-- Every write to a byte memory keeps its canonical form. -/
theorem Mem.wf_set (m : Mem) (a : Nat) (b : Byte) (h : Mem.wf m = true) : Mem.wf (Mem.set m a b) = true := Table.wf_set _ _ _ _ h

theorem Mem.wf_write (bs : List Byte) (m : Mem) (a : Nat) (h : Mem.wf m = true) : Mem.wf (Mem.write m a bs) = true := by
  induction bs generalizing m a with
  | nil => exact h
  | cons b bs ih => exact ih _ _ (Mem.wf_set _ _ _ h)

theorem Mem.wf_clear (m : Mem) (a n : Nat) (h : Mem.wf m = true) : Mem.wf (Mem.clear m a n) = true := Table.wf_filter _ _ _ h

end Sys2Proof
end

