-- ==== Sys2Proof/Laws/Issue.lean ====
section
/-! SUPPORT. What the issue of an instruction can do, said once: the core that issues, how each end of an instruction leaves it, and
that no other core changes. -/

namespace Sys2Proof.Machine

theorem coreKey_inj {p q : PartNo} {k j : Fin 1024} (h : coreKey p k = coreKey q j) : p = q ∧ k = j := by
  unfold coreKey at h
  have := p.isLt; have := q.isLt; have := k.isLt; have := j.isLt
  constructor <;> (apply Fin.ext; omega)

@[simp] theorem core_setCore_same (s : State) (p : PartNo) (k : Fin 1024) (x : Core) : (s.setCore p k x).core p k = x := by
  simp [State.core, State.setCore]

theorem core_setCore_other (s : State) {p q : PartNo} {k j : Fin 1024} (x : Core) (h : (q, j) ≠ (p, k)) :
    (s.setCore p k x).core q j = s.core q j := by
  unfold State.core State.setCore
  refine Table.get_set_other _ _ _ ?_
  intro e
  obtain ⟨rfl, rfl⟩ := coreKey_inj e
  exact h rfl

/-- Replacing a core changes nothing else. -/
theorem onlyCore_setCore (s : State) (p : PartNo) (k : Fin 1024) (x : Core) : OnlyCore s (s.setCore p k x) p k :=
  ⟨rfl, fun _ _ h => core_setCore_other s x h⟩

/-- What a core that issues looks like (R101). -/
theorem Core.canIssue_spec {c : Core} (h : c.canIssue = true) :
    c.state = 1 ∧ c.held = none ∧ c.faulted = false ∧ c.ctx.isSome = true := by
  simp only [Core.canIssue, Bool.and_eq_true, Bool.not_eq_true', beq_iff_eq, Option.isNone_iff_eq_none] at h
  obtain ⟨⟨⟨⟨⟨⟨h1, h2⟩, h3⟩, h4⟩, _⟩, _⟩, _⟩ := h
  exact ⟨h2, h4, h3, h1⟩

/-- A core that is running and holds nothing is the same core with those two fields set again. -/
theorem Core.running_eq {c : Core} (h1 : c.state = 1) (h2 : c.held = none) : ({ c with state := 1, held := none } : Core) = c := by
  rw [← h1, ← h2]

/-- An instruction that its core takes: its body, then its end on the core (R103). -/
theorem issue_taken {s : State} {i : Issue} (h : s.takes i) (instr : Instr) (b : Body) :
    s.issue i instr b = (b s (s.coreOf i)).1.setCore i.part i.core ((b s (s.coreOf i)).2.apply (s.coreOf i) instr) := by
  obtain ⟨h1, h2, h3⟩ := h
  simp [State.issue, h1, h2, h3, State.runBody, State.coreOf]

/-- An instruction that its core does not take changes nothing. -/
theorem issue_idle {s : State} {i : Issue} (instr : Instr) (b : Body)
    (h : (s.coreOf i).canIssue = false ∨ s.partLive i.part = false) : s.issue i instr b = s := by
  unfold State.coreOf at h
  rcases h with h | h <;> simp [State.issue, h]

/-- Going on at a place within the segment: the program counter and the count of retired instructions (R77, R101). -/
theorem Core.retireTo_within {c : Core} {pc : Word} (h : pc.toNat < c.segLen) : c.retireTo pc = c.wentTo pc := by
  unfold Core.retireTo
  rw [if_neg]
  · rfl
  · simpa [Core.segLen] using Nat.not_le.mpr h

/-- An instruction that is done leaves its core's result, gone on by one instruction. -/
theorem CRes.apply_done {c c1 : Core} (instr : Instr) (h1 : c1.state = 1) (h2 : c1.held = none)
    (h : (c1.pc + 4).toNat < c1.segLen) : (CRes.done c1).apply c instr = c1.wentTo (c1.pc + 4) := by
  simp only [CRes.apply, Core.running_eq h1 h2, Core.retire]
  exact Core.retireTo_within h

/-- The first fault of a running core is recorded, and nothing else of the core changes (R103, R104). -/
theorem Core.raise_first {c : Core} (h1 : c.state = 1) (h2 : c.held = none) (h3 : c.faulted = false) (cause : Nat) (code : Code)
    (addr : Word) : c.raise c.progress cause code c.pc addr = c.stopped (BitVec.ofNat 8 cause) code addr := by
  unfold Core.raise Core.stopped
  simp [h1, h2, h3]

/-- An instruction that faults leaves its core stopped. -/
theorem CRes.apply_fault {c : Core} (instr : Instr) (h : c.canIssue = true) (cause : Nat) (code : Code) (addr : Word) :
    (CRes.fault cause code addr).apply c instr = c.stopped (BitVec.ofNat 8 cause) code addr := by
  obtain ⟨h1, h2, h3, _⟩ := Core.canIssue_spec h
  simp only [CRes.apply, Core.running_eq h1 h2]
  exact Core.raise_first h1 h2 h3 cause code addr

/-- A jump to a target that R77 admits. -/
theorem CRes.apply_jump {c c1 : Core} (instr : Instr) (t : Word) (h1 : c1.state = 1) (h2 : c1.held = none)
    (h3 : c1.ctx = c.ctx) (h : t.toNat % 4 = 0 ∧ t.toNat < c.segLen) : (CRes.jump c1 t).apply c instr = c1.wentTo t := by
  simp only [CRes.apply, Core.running_eq h1 h2]
  rw [if_neg (by omega)]
  refine Core.retireTo_within ?_
  simpa [Core.segLen, h3] using h.2

/-- A jump to another target raises the address fault. -/
theorem CRes.apply_jump_bad {c c1 : Core} (instr : Instr) (t : Word) (hc : c.canIssue = true)
    (h : ¬ (t.toNat % 4 = 0 ∧ t.toNat < c.segLen)) : (CRes.jump c1 t).apply c instr = c.stopped 3 0x0207 t := by
  obtain ⟨h1, h2, h3, _⟩ := Core.canIssue_spec hc
  simp only [CRes.apply, Core.running_eq h1 h2]
  rw [if_pos (by omega)]
  exact Core.raise_first h1 h2 h3 3 0x0207 t

/-- Writing a general register leaves the rest of the core. -/
@[simp] theorem Core.setGr_state (c : Core) (d : Reg) (x : Word) : (c.setGr d x).state = c.state := by unfold Core.setGr; split <;> rfl
@[simp] theorem Core.setGr_held (c : Core) (d : Reg) (x : Word) : (c.setGr d x).held = c.held := by unfold Core.setGr; split <;> rfl
@[simp] theorem Core.setGr_ctx (c : Core) (d : Reg) (x : Word) : (c.setGr d x).ctx = c.ctx := by unfold Core.setGr; split <;> rfl
@[simp] theorem Core.setGr_pc (c : Core) (d : Reg) (x : Word) : (c.setGr d x).pc = c.pc := by unfold Core.setGr; split <;> rfl
@[simp] theorem Core.setVr_state (c : Core) (d : Reg) (x : Block) (b : Bool) : (c.setVr d x b).state = c.state := rfl
@[simp] theorem Core.setVr_held (c : Core) (d : Reg) (x : Block) (b : Bool) : (c.setVr d x b).held = c.held := rfl
@[simp] theorem Core.setVr_ctx (c : Core) (d : Reg) (x : Block) (b : Bool) : (c.setVr d x b).ctx = c.ctx := rfl
@[simp] theorem Core.setVr_pc (c : Core) (d : Reg) (x : Block) (b : Bool) : (c.setVr d x b).pc = c.pc := rfl

/-- An instruction whose body leaves the state alone and is done with a core of the same place. -/
theorem leavesCore_done {s : State} {i : Issue} {instr : Instr} {b : Body} (c1 : Core) (h : s.takes i) (hf : s.follows i)
    (e : exec instr s = .next (s.issue i instr b)) (hb : b s (s.coreOf i) = (s, .done c1))
    (k : c1.state = (s.coreOf i).state ∧ c1.held = (s.coreOf i).held ∧ c1.ctx = (s.coreOf i).ctx ∧ c1.pc = (s.coreOf i).pc) :
    LeavesCore i instr s (c1.wentTo ((s.coreOf i).pc + 4)) := by
  obtain ⟨k1, k2, k3, k4⟩ := k
  obtain ⟨h1, h2, _, _⟩ := Core.canIssue_spec h.1
  refine ⟨_, e, ?_⟩
  rw [issue_taken h, hb, CRes.apply_done instr (k1.trans h1) (k2.trans h2), k4]
  · exact ⟨onlyCore_setCore _ _ _ _, core_setCore_same _ _ _ _⟩
  · rw [k4]; unfold Core.segLen; rw [k3]; exact hf

/-- An instruction whose body leaves the state alone and faults. -/
theorem leavesCore_fault {s : State} {i : Issue} {instr : Instr} {b : Body} (cause : Nat) (code : Code) (addr : Word) (h : s.takes i)
    (e : exec instr s = .next (s.issue i instr b)) (hb : b s (s.coreOf i) = (s, .fault cause code addr)) :
    LeavesCore i instr s ((s.coreOf i).stopped (BitVec.ofNat 8 cause) code addr) := by
  refine ⟨_, e, ?_⟩
  rw [issue_taken h, hb, CRes.apply_fault (c := s.coreOf i) instr h.1]
  exact ⟨onlyCore_setCore _ _ _ _, core_setCore_same _ _ _ _⟩

/-- An instruction whose body leaves the state alone and waits. -/
theorem leavesCore_wait {s : State} {i : Issue} {instr : Instr} {b : Body} (st : BitVec 3) (h : s.takes i)
    (e : exec instr s = .next (s.issue i instr b)) (hb : b s (s.coreOf i) = (s, .wait st)) :
    LeavesCore i instr s { s.coreOf i with state := st, held := some instr } := by
  refine ⟨_, e, ?_⟩
  rw [issue_taken h, hb]
  exact ⟨onlyCore_setCore _ _ _ _, core_setCore_same _ _ _ _⟩

/-- An instruction whose body leaves the state alone and deals with the program counter itself. -/
theorem leavesCore_as {s : State} {i : Issue} {instr : Instr} {b : Body} (c1 : Core) (h : s.takes i)
    (e : exec instr s = .next (s.issue i instr b)) (hb : b s (s.coreOf i) = (s, .as c1)) : LeavesCore i instr s c1 := by
  refine ⟨_, e, ?_⟩
  rw [issue_taken h, hb]
  exact ⟨onlyCore_setCore _ _ _ _, core_setCore_same _ _ _ _⟩

/-- An instruction whose body leaves the state alone and jumps. -/
theorem leavesCore_jump {s : State} {i : Issue} {instr : Instr} {b : Body} (c1 : Core) (t : Word) (h : s.takes i)
    (e : exec instr s = .next (s.issue i instr b)) (hb : b s (s.coreOf i) = (s, .jump c1 t))
    (k : c1.state = (s.coreOf i).state ∧ c1.held = (s.coreOf i).held ∧ c1.ctx = (s.coreOf i).ctx) :
    (s.targetOk i t → LeavesCore i instr s (c1.wentTo t)) ∧ (¬ s.targetOk i t → LeavesCore i instr s ((s.coreOf i).stopped 3 0x0207 t)) := by
  obtain ⟨h1, h2, _, _⟩ := Core.canIssue_spec h.1
  obtain ⟨k1, k2, k3⟩ := k
  constructor <;> intro ht <;> refine ⟨_, e, ?_⟩ <;> rw [issue_taken h, hb]
  · rw [CRes.apply_jump (c := s.coreOf i) instr t (k1.trans h1) (k2.trans h2) k3 ht]
    exact ⟨onlyCore_setCore _ _ _ _, core_setCore_same _ _ _ _⟩
  · rw [CRes.apply_jump_bad (c := s.coreOf i) instr t h.1 ht]
    exact ⟨onlyCore_setCore _ _ _ _, core_setCore_same _ _ _ _⟩

/-- An access of core-local memory that is aligned, in its space and not held back runs its body on the place (R78, R79). -/
theorem localBody_ok {addr : Core → Word} {n al : Nat} {w : Bool} {p : PartNo} {k : Fin 1024} {b : Nat → Body} {s : State} {c : Core}
    {key : Nat} (h1 : (addr c).toNat % al = 0) (h2 : s.localAt p k (addr c).toNat n = some key)
    (h3 : c.mmHolds (addr c).toNat n w = false) : localBody addr n al w p k b s c = b key s c := by
  simp only [localBody, h1, h2, h3, ne_eq, not_true_eq_false, if_false, Bool.false_eq_true]

/-- An access that is misaligned or outside its space raises the address fault (R79, R81). -/
theorem localBody_bad {addr : Core → Word} {n al : Nat} {w : Bool} {p : PartNo} {k : Fin 1024} {b : Nat → Body} {s : State} {c : Core}
    (h : (addr c).toNat % al ≠ 0 ∨ s.localAt p k (addr c).toNat n = none) :
    localBody addr n al w p k b s c = (s, .fault 3 0x0207 (addr c)) := by
  by_cases h1 : (addr c).toNat % al = 0
  · have h2 := h.resolve_left (fun x => x h1)
    simp only [localBody, h1, h2, ne_eq, not_true_eq_false, if_false]
  · simp only [localBody, ne_eq, h1, not_false_eq_true, if_true]

end Sys2Proof.Machine
end

