-- ==== Sys2Proof/Laws/Ops.lean ====
section
/-! SUPPORT. What is read of a unit after an update of one: the updated unit reads as it was set, every other as before; and what the
operations do that send a packet or queue words. -/

namespace Sys2Proof.Machine

/-! ## Partitions, ports, channels -/

@[simp] theorem part_setPart_same (s : State) (p : PartNo) (x : Part) : (s.setPart p x).part p = x := by
  simp [State.part, State.setPart]

theorem part_setPart_other (s : State) {p q : PartNo} (x : Part) (h : q ≠ p) : (s.setPart p x).part q = s.part q := by
  have : p.val ≠ q.val := fun e => h (Fin.ext e.symm)
  simp [State.part, State.setPart, Vector.getElem_set_ne, this]

@[simp] theorem part_updPart_same (s : State) (p : PartNo) (f : Part → Part) : (s.updPart p f).part p = f (s.part p) :=
  part_setPart_same s p _

theorem part_updPart_other (s : State) {p q : PartNo} (f : Part → Part) (h : q ≠ p) : (s.updPart p f).part q = s.part q :=
  part_setPart_other s _ h

@[simp] theorem link_setLink_same (s : State) (n : Fin 20) (x : Link) : (s.setLink n x).link n = x := by
  simp [State.link, State.setLink]

theorem link_setLink_other (s : State) {n m : Fin 20} (x : Link) (h : m ≠ n) : (s.setLink n x).link m = s.link m := by
  have : n.val ≠ m.val := fun e => h (Fin.ext e.symm)
  simp [State.link, State.setLink, Vector.getElem_set_ne, this]

@[simp] theorem link_updLink_same (s : State) (n : Fin 20) (f : Link → Link) : (s.updLink n f).link n = f (s.link n) :=
  link_setLink_same s n _

theorem link_updLink_other (s : State) {n m : Fin 20} (f : Link → Link) (h : m ≠ n) : (s.updLink n f).link m = s.link m :=
  link_setLink_other s _ h

@[simp] theorem chan_setChan_same (s : State) (cl : Fin 32) (ch : Fin 16) (x : DmaChan) : (s.setChan cl ch x).chan cl ch = x := by
  simp [State.chan, State.setChan]

theorem chan_setChan_other (s : State) (cl : Fin 32) {ch c : Fin 16} (x : DmaChan) (h : c ≠ ch) :
    (s.setChan cl ch x).chan cl c = s.chan cl c := by
  have : ch.val ≠ c.val := fun e => h (Fin.ext e.symm)
  simp [State.chan, State.setChan, Vector.getElem_set_ne, this]

/-! ## Queues -/

/-- A side or binding is named by its partition, core and queue. -/
theorem queueKey_inj {p p' : PartNo} {k k' : Fin 1024} {q q' : Fin 8}
    (h : coreKey p k * 8 + q.val = coreKey p' k' * 8 + q'.val) : p = p' ∧ k = k' ∧ q = q' := by
  have := q.isLt; have := q'.isLt
  obtain ⟨h1, h2⟩ := coreKey_inj (p := p) (q := p') (k := k) (j := k') (by omega)
  exact ⟨h1, h2, Fin.ext (by subst h1 h2; omega)⟩

@[simp] theorem qin_setQin_same (s : State) (p : PartNo) (k : Fin 1024) (q : Fin 8) (x : QIn) : (s.setQin p k q x).qin p k q = x := by
  simp [State.qin, State.setQin]

theorem qin_setQin_other (s : State) {p p' : PartNo} {k k' : Fin 1024} {q q' : Fin 8} (x : QIn) (h : (p', k', q') ≠ (p, k, q)) :
    (s.setQin p k q x).qin p' k' q' = s.qin p' k' q' := by
  unfold State.qin State.setQin
  refine Table.get_set_other _ _ _ fun e => ?_
  obtain ⟨rfl, rfl, rfl⟩ := queueKey_inj e
  exact h rfl

@[simp] theorem qout_setQout_same (s : State) (p : PartNo) (k : Fin 1024) (q : Fin 8) (x : QOut) :
    (s.setQout p k q x).qout p k q = x := by simp [State.qout, State.setQout]

theorem qout_setQout_other (s : State) {p p' : PartNo} {k k' : Fin 1024} {q q' : Fin 8} (x : QOut) (h : (p', k', q') ≠ (p, k, q)) :
    (s.setQout p k q x).qout p' k' q' = s.qout p' k' q' := by
  unfold State.qout State.setQout
  refine Table.get_set_other _ _ _ fun e => ?_
  obtain ⟨rfl, rfl, rfl⟩ := queueKey_inj e
  exact h rfl

@[simp] theorem qin_setCore (s : State) (p p' : PartNo) (k k' : Fin 1024) (q : Fin 8) (x : Core) :
    (s.setCore p k x).qin p' k' q = s.qin p' k' q := rfl

@[simp] theorem qout_setCore (s : State) (p p' : PartNo) (k k' : Fin 1024) (q : Fin 8) (x : Core) :
    (s.setCore p k x).qout p' k' q = s.qout p' k' q := rfl

@[simp] theorem core_setQin (s : State) (p p' : PartNo) (k k' : Fin 1024) (q : Fin 8) (x : QIn) :
    (s.setQin p k q x).core p' k' = s.core p' k' := rfl

@[simp] theorem core_setQout (s : State) (p p' : PartNo) (k k' : Fin 1024) (q : Fin 8) (x : QOut) :
    (s.setQout p k q x).core p' k' = s.core p' k' := rfl

/-! ## Mailboxes, reply slots, pools -/

@[simp] theorem mailbox_setMailbox_same (s : State) (mb : MbId) (x : Mailbox) : (s.setMailbox mb x).mailbox mb = x := by
  simp [State.mailbox, State.setMailbox]

theorem mailbox_setMailbox_other (s : State) {mb n : MbId} (x : Mailbox) (h : mbKey n ≠ mbKey mb) :
    (s.setMailbox mb x).mailbox n = s.mailbox n := Table.get_set_other _ _ _ h

@[simp] theorem replySlot_setReply_same (s : State) (p : PartNo) (u : BitVec 16) (n : Nat) (x : ReplySlot) :
    (s.setReply p u n x).replySlot p u n = x := by simp [State.replySlot, State.setReply]

theorem replySlot_setReply_other (s : State) (p : PartNo) (u : BitVec 16) {n m : Nat} (x : ReplySlot) (h : m ≠ n) :
    (s.setReply p u n x).replySlot p u m = s.replySlot p u m :=
  Table.get_set_other _ _ _ (by unfold replyKey; omega)

@[simp] theorem pool_setPool_same (s : State) (k : Nat) (x : List (Pkt × Bool)) : (s.setPool k x).pool k = x := by
  simp [State.pool, State.setPool]

theorem pool_setPool_other (s : State) {k j : Nat} (x : List (Pkt × Bool)) (h : j ≠ k) : (s.setPool k x).pool j = s.pool j :=
  Table.get_set_other _ _ _ h

/-! ## Poison, packets -/

@[simp] theorem Core.emit_state (c : Core) : c.emit.state = c.state := rfl
@[simp] theorem Core.emit_held (c : Core) : c.emit.held = c.held := rfl
@[simp] theorem Core.emit_pc (c : Core) : c.emit.pc = c.pc := rfl
@[simp] theorem Core.emit_ctx (c : Core) : c.emit.ctx = c.ctx := rfl

/-- A packet for this package comes to a local interface, every other is injected (R290); nothing else changes. -/
theorem send_eq (s : State) (p : Pkt) : s.send p = { s with fab :=
    (if s.device = some p.dest then { s.fab with deliver := s.fab.deliver ++ [p] } else { s.fab with inject := s.fab.inject ++ [p] }) } := by
  unfold State.send; split <;> rfl

/-- Queue words for a side of the same partition are set out for it at once; others travel as one packet; the writes that they follow
are kept beside them (R94, R153). -/
theorem sendWords_eq (s : State) (p : Pkt) (a : List WriteRef) : s.sendWords p a = { s with
    wordAfter := s.wordAfter ++ (if a = [] then [] else [(p, a)])
    words := (if s.device = some p.dest ∧ p.spart = p.dpart then s.words ++ [(p, List.range p.data.length)] else s.words)
    fab := (if s.device = some p.dest ∧ p.spart = p.dpart then s.fab
      else if s.device = some p.dest then { s.fab with deliver := s.fab.deliver ++ [p] } else { s.fab with inject := s.fab.inject ++ [p] }) } := by
  cases a with
  | nil =>
    by_cases h : s.device = some p.dest ∧ p.spart = p.dpart
    · simp [State.sendWords, h]
    · simp only [State.sendWords, List.isEmpty_nil, if_true, if_neg h, send_eq, List.append_nil]
  | cons x l =>
    by_cases h : s.device = some p.dest ∧ p.spart = p.dpart
    · simp [State.sendWords, h]
    · simp only [State.sendWords, List.isEmpty_cons, if_neg h, send_eq]; rfl

end Sys2Proof.Machine
end

