-- ==== Sys2Proof/Machine/Lands.lean ====
section
/-! DEFINITION. The lands of the package and its rails, as the tables of the manual place and number them (R466, R468 to R470,
R472). They are constants of the package: no command changes them. -/

namespace Sys2Proof.Machine

/-- A land by its row and column, each 1 to 130 (R466). -/
structure Land where
  row : Nat
  col : Nat
  deriving DecidableEq, Repr

/-- The centre of a land from the package centre, x to the right and y upward, in micrometres (R466). -/
def Land.centre (l : Land) : Int × Int := ((2 * (l.col : Int) - 131) * 450, (131 - 2 * (l.row : Int)) * 450)

/-- The four lands of a high-speed lane (R468). -/
inductive LaneLand where
  | txP | txN | rxP | rxN
  deriving DecidableEq, Repr

/-- A receive land. -/
def LaneLand.rx : LaneLand → Bool
  | .txP => false
  | .txN => false
  | .rxP => true
  | .rxN => true

/-- The second land of its pair. -/
def LaneLand.neg : LaneLand → Nat
  | .txP => 0
  | .txN => 1
  | .rxP => 0
  | .rxN => 1

/-- The field that a fabric port is attached to (R22). -/
def portField (port : Fin 20) : Nat :=
  if port.val < 8 then port.val / 2 else if port.val < 16 then (port.val - 8) / 2
  else if port.val = 16 then 0 else if port.val = 17 then 3 else port.val - 17

/-- The row of a fabric port's transmit lands; its receive lands lie two rows below (R468). -/
def portRow (port : Fin 20) : Nat :=
  if port.val < 8 then (if port.val % 2 = 0 then 124 else 128)
  else if port.val < 16 then (if port.val % 2 = 0 then 2 else 6) else 10

/-- The land of a fabric port's physical lane, 0 to 4 (R249, R468). -/
def fabLand (port : Fin 20) (lane : Fin 5) (w : LaneLand) : Land :=
  { row := portRow port + (if w.rx then 2 else 0), col := 32 * portField port + 9 + 4 * lane.val + w.neg }

/-- The land of a PCI Express lane before any lane reversal: port A, or port B (R468). -/
def pcieLand (portB : Bool) (lane : Fin 16) (w : LaneLand) : Land :=
  { row := 35 + 4 * lane.val + w.neg, col := if portB then (if w.rx then 125 else 129) else (if w.rx then 6 else 2) }

/-- Who drives a land (R469). -/
inductive LandDir where
  | input | output | both
  deriving DecidableEq, Repr

/-- A low-speed or sense land (R469). -/
structure LowLand where
  name : String
  at_ : Land
  dir : LandDir
  deriving DecidableEq, Repr

/-- Lands of one row of the package at consecutive columns (R469). -/
def lowRow (row col : Nat) (lands : List (String × LandDir)) : List LowLand :=
  lands.zipIdx.map fun x => { name := x.1.1, at_ := { row := row, col := col + x.2 }, dir := x.1.2 }

/-- Low-speed lands of rows 020 and 021 (R469). -/
def lowLandsA : List LowLand :=
  lowRow 20 60 [("RACK_REF_P", .input), ("RACK_REF_N", .input)]
    ++ lowRow 20 63 [("RACK_SYNC", .input)]
    ++ lowRow 20 65 [("PKG_RESET_N", .input), ("PWR_BRAKE", .input), ("COOL_ALERT", .input), ("THERM_TRIP_N", .output),
      ("PKG_ALERT_N", .output), ("PKG_READY", .output), ("WAKE0", .input), ("WAKE1", .input)]
    ++ lowRow 21 60 [("I3C_SCL", .both), ("I3C_SDA", .both)]
    ++ lowRow 21 63 [("MGMT_TX_P", .output), ("MGMT_TX_N", .output)]
    ++ lowRow 21 66 [("MGMT_RX_P", .input), ("MGMT_RX_N", .input)]
    ++ lowRow 21 69 [("UART_TX", .output), ("UART_RX", .input)]
    ++ lowRow 21 72 [("TEST_EN", .input)]

/-- Low-speed lands of rows 022 to 024 (R469). -/
def lowLandsB : List LowLand :=
  lowRow 22 60 [("JTAG_TCK", .input), ("JTAG_TMS", .input), ("JTAG_TDI", .input), ("JTAG_TDO", .output), ("JTAG_TRST_N", .input)]
    ++ lowRow 22 66 [("AVS_CLK", .output), ("AVS_MDATA", .output), ("AVS_SDATA", .input)]
    ++ lowRow 22 70 [("STRAP_RESET_STYLE", .input), ("STRAP_ADDR0", .input), ("STRAP_ADDR1", .input), ("STRAP_ADDR2", .input)]
    ++ lowRow 23 60 [("FLASH_CLK", .output), ("FLASH_CS_N", .output), ("FLASH_DQS", .input), ("FLASH_IO0", .both),
      ("FLASH_IO1", .both), ("FLASH_IO2", .both), ("FLASH_IO3", .both), ("FLASH_IO4", .both), ("FLASH_IO5", .both),
      ("FLASH_IO6", .both), ("FLASH_IO7", .both), ("FLASH_REQ_N", .output), ("FLASH_GNT_N", .input)]
    ++ lowRow 24 60 [("BEDROCK_PG", .input), ("RAIL_EN", .output), ("CORE_EN", .output), ("PWR_GOOD", .input)]

/-- The sense lands and the lands of the PCI Express references and resets (R469). -/
def lowLandsC : List LowLand :=
  lowRow 65 65 [("VSENSE_CORE_P", .output), ("VSENSE_CORE_N", .output)]
    ++ lowRow 66 65 [("VSENSE_SRAM_P", .output), ("VSENSE_SRAM_N", .output)]
    ++ lowRow 67 65 [("VSENSE_VDDQ_P", .output), ("VSENSE_VDDQ_N", .output)]
    ++ lowRow 100 2 [("PCIE_A_REF_P", .input)] ++ lowRow 101 2 [("PCIE_A_REF_N", .input)]
    ++ lowRow 100 129 [("PCIE_B_REF_P", .input)] ++ lowRow 101 129 [("PCIE_B_REF_N", .input)]
    ++ lowRow 103 4 [("PERST_A_N", .input)] ++ lowRow 103 127 [("PERST_B_N", .input)]

/-- Every low-speed and sense land (R469). -/
def lowLands : List LowLand := lowLandsA ++ lowLandsB ++ lowLandsC

/-- A package rail (R470): its lands, its nominal voltage in mV (VDD_CORE: none, it is V_req), its absolute maximum in mV, and
whether it is on in PS3 and always. -/
structure Rail where
  name : String
  lands : Nat
  nominal : Option Nat
  absMax : Nat
  inPs3 : Bool
  always : Bool := false
  deriving DecidableEq, Repr

/-- The rails in the order that numbers them 0 to 10 (R429, R470). -/
def rails : List Rail :=
  [{ name := "VDD_CORE", lands := 2304, nominal := none, absMax := 1000, inPs3 := false },
   { name := "VDD_SRAM", lands := 256, nominal := some 800, absMax := 1000, inPs3 := false },
   { name := "VDD_SERDES", lands := 160, nominal := some 750, absMax := 950, inPs3 := true },
   { name := "VDD_SERDES_18", lands := 16, nominal := some 1800, absMax := 2100, inPs3 := true },
   { name := "VDD_IO", lands := 48, nominal := some 750, absMax := 950, inPs3 := true },
   { name := "VDD_IO_18", lands := 8, nominal := some 1800, absMax := 2100, inPs3 := true },
   { name := "VPP_STACK", lands := 24, nominal := some 1800, absMax := 2100, inPs3 := true },
   { name := "VDD_STACK", lands := 192, nominal := some 1050, absMax := 1250, inPs3 := true },
   { name := "VDDQ_STACK", lands := 192, nominal := some 700, absMax := 900, inPs3 := true },
   { name := "VDD_BEDROCK", lands := 4, nominal := some 750, absMax := 950, inPs3 := true, always := true },
   { name := "VDD_BEDROCK_18", lands := 2, nominal := some 1800, absMax := 2100, inPs3 := true, always := true }]

/-- The order in which rails rise once RAIL_EN and then CORE_EN are high, by number; they fall in the reverse order (R472). -/
def railOrder : List Nat := [6, 7, 8, 5, 4, 3, 2, 1, 0]

/-- The voltage in mV above which an overvoltage chain votes for a rail other than VDD_CORE: 110% of its nominal one, rounded
down (R429). -/
def Rail.overvoltage (r : Rail) : Option Nat := r.nominal.map fun n => n * 11 / 10

end Sys2Proof.Machine
end

