-- ==== Sys2Proof/Tests/Slice0.lean ====
section
/-! SUPPORT. Tests: the well-formedness smoke, core words written out from the encoding tables, small steps, and for every statement
with hypotheses a theorem named witness_ and the statement's name, which shows a state and operands that meet them, clause by
clause. -/

namespace Sys2Proof.Tests

/- One test after the other: each kernel evaluation waits for the one before it, and a test that waits holds a thread. -/
set_option Elab.async false

open Sys2Proof Sys2Proof.Machine

/-! ## States to test on -/

/-- A core in a context whose segment has 16 instructions. -/
def core0 : Core := { ctx := some { op := 0, imageBase := 0x10000000, segLen := 64 }, state := 1 }

/-- A partition of one cluster that runs. -/
def part0 : Part := { state := 2, clusters := [0], capacity := { capacityGib := 100 } }

/-- A package after bring-up: partition 0 runs, core 0 of it has a context, firmware serves. -/
def run : State :=
  { State.reset with
    device := some 5
    parts := State.reset.parts.set 0 part0
    cores := [(0, core0)]
    clocks := { clk := { cpLock := true, aclkLock := 15, nclkLock := true, refRack := true } }
    boot := { status := { ready := true, stage := 9 } }
    lands := { bedrockPg := true, railEn := true, coreEn := true, pwrGood := true }
    rcv := { cp := { cpbHealthy := true } } }

/-- `run` with another core 0. -/
def withCore (f : Core → Core) : State := { run with cores := [(0, f core0)] }

/-- `run` with another partition 0. -/
def withPart (f : Part → Part) : State := { run with parts := run.parts.set 0 (f part0) }

/-- Core 0 of partition 0, with no error of its hardware. -/
def i0 : Issue := { part := 0, core := 0 }

/-! ## Witnesses -/

theorem witness_AluFunctionsWriteTheirResult : run.takes i0 ∧ run.follows i0 ∧ opcodeField 0x04000000 = 1 := by decide +kernel

theorem witness_ImmediateFormsWriteTheirResult : run.takes i0 ∧ run.follows i0 ∧ (63#16).toNat < 64 := by decide +kernel

theorem witness_RegisterZeroReadsZeroAndIgnoresWrites : (1 : Reg) ≠ 0 ∧ (0 : Reg) ≠ 1 := by decide +kernel

/-- The last target within the segment, and the first past it. -/
theorem witness_BranchesAndJumpsGoOnAtTheirTarget :
    run.takes i0 ∧ run.follows i0 ∧ run.targetOk i0 60 ∧ ¬ run.targetOk i0 64 ∧ (core0.pc + 4 * (15#16).signExtend 64 = 60)
      ∧ ((run.coreOf i0).gr 0 = (run.coreOf i0).gr 0) ∧ ¬ ((run.coreOf i0).gr 0 ≠ (run.coreOf i0).gr 0) := by decide +kernel

def stores0 : State := withCore fun c => { c with g := c.g.set 1 (BitVec.ofNat 64 (2 ^ 21 - 256)) }

/-- The last 8, 128 and 256 bytes of a scratchpad. -/
theorem witness_LoadsBringTheAddressedBytes :
    let c := stores0.coreOf i0
    let w (imm : BitVec 16) := c.gr 1 + imm.signExtend 64
    stores0.takes i0 ∧ stores0.follows i0
      ∧ ((w 248).toNat % 8 = 0 ∧ stores0.localAt 0 0 (w 248).toNat 8 = some (2 ^ 21 - 8) ∧ c.mmHolds (w 248).toNat 8 false = false
        ∧ stores0.sramPoisoned (2 ^ 21 - 8) 8 = false)
      ∧ ((w 0).toNat % 64 = 0 ∧ stores0.localAt 0 0 (w 0).toNat 256 = some (2 ^ 21 - 256) ∧ c.mmHolds (w 0).toNat 256 false = false
        ∧ stores0.sramPoisoned (2 ^ 21 - 256) 256 = false)
      ∧ ((w 128).toNat % 128 = 0 ∧ stores0.localAt 0 0 (w 128).toNat 128 = some (2 ^ 21 - 128) ∧ c.mmHolds (w 128).toNat 128 false = false
        ∧ stores0.sramPoisoned (2 ^ 21 - 128) 128 = false) := by decide +kernel

theorem witness_StoresWriteOnlyTheAddressedBytes :
    let c := stores0.coreOf i0
    let w (imm : BitVec 16) := c.gr 1 + imm.signExtend 64
    stores0.takes i0 ∧ stores0.follows i0
      ∧ ((w 248).toNat % 8 = 0 ∧ stores0.localAt 0 0 (w 248).toNat 8 = some (2 ^ 21 - 8) ∧ c.mmHolds (w 248).toNat 8 true = false)
      ∧ ((w 0).toNat % 64 = 0 ∧ stores0.localAt 0 0 (w 0).toNat 256 = some (2 ^ 21 - 256) ∧ c.mmHolds (w 0).toNat 256 true = false)
      ∧ c.vpoison 0 = false := by decide +kernel

/-- A misaligned address, and the first past the scratchpad. -/
theorem witness_BadCoreLocalAddressRaisesAddressFault :
    let w (imm : BitVec 16) := ((stores0.coreOf i0).gr 1 + imm.signExtend 64).toNat
    stores0.takes i0 ∧ w 1 % 8 ≠ 0 ∧ stores0.localAt 0 0 (w 256) 8 = none ∧ w 8 % 64 ≠ 0 ∧ stores0.localAt 0 0 (w 64) 256 = none
      ∧ w 64 % 128 ≠ 0 ∧ stores0.localAt 0 0 (w 256) 128 = none := by decide +kernel

theorem witness_ReservedBitsRaiseEncodingFault :
    run.takes i0 ∧ (1 : BitVec 26) ≠ 0 ∧ 64 ≤ (64#16).toNat ∧ (1 : BitVec 16) ≠ 0 ∧ (1 : BitVec 2) ≠ 0 ∧ (1 : BitVec 23) ≠ 0
      ∧ (1 : BitVec 10) ≠ 0 ∧ (1 : BitVec 15) ≠ 0 ∧ (1 : BitVec 18) ≠ 0 ∧ (1 : BitVec 5) ≠ 0
      ∧ (run.coreOf { i0 with hw := .encoding }).canIssue = true ∧ run.partLive 0 = true := by decide +kernel

theorem witness_IdleCoreTakesNoInstruction :
    (Instr.nop { part := 0, core := 1 } 0).issueOf = some { part := 0, core := 1 } ∧ (run.coreOf { part := 0, core := 1 }).canIssue = false
      ∧ run.partLive 1 = false := by decide +kernel

theorem witness_LaneOperationsWriteEveryLane :
    run.takes i0 ∧ run.follows i0 ∧ (run.coreOf i0).vpoison 0 = false ∧ (run.coreOf i0).vpoison 31 = false := by decide +kernel

theorem witness_WholeRegisterVectorOperations :
    run.takes i0 ∧ run.follows i0 ∧ (run.coreOf i0).vpoison 0 = false ∧ bitsAt ((run.coreOf i0).gr 0).toNat 0 4 ≤ 9
      ∧ bitsAt ((run.coreOf i0).gr 0).toNat 4 4 ≤ 9 ∧ bitsAt ((run.coreOf i0).gr 0).toNat 8 2 ≠ 3
      ∧ bitsAt ((run.coreOf i0).gr 0).toNat 11 21 = 0 := by decide +kernel

theorem witness_PoisonedSourcePoisonsDestination :
    let s := withCore fun c => { c with vp := 2 }
    s.takes i0 ∧ s.follows i0 ∧ (s.coreOf i0).vpoison 1 = true := by decide +kernel

/-- A matrix descriptor: BF16 by BF16, no addend, an FP32 result, `m` by 1 by 1; A at 0, B at 64, D at `d`. -/
def descM (m d acc : Nat) : BitVec 1024 :=
  packFields [(0, 4, 1), (4, 4, 1), (17, 1, acc), (64, 16, m), (80, 16, 1), (96, 21, 1), (8 * 0x14, 32, 64), (8 * 0x1C, 32, d),
    (8 * 0x28, 32, 64), (8 * 0x2C, 32, 64), (8 * 0x34, 32, 64)]

/-- The same with one row. -/
def desc0 (d acc : Nat) : BitVec 1024 := descM 1 d acc

/-- Core 0 with a descriptor in slot 0 and `n` operations outstanding. -/
def mma0 (d acc n : Nat) : State :=
  withCore fun c => { c with slots := c.slots.set 0 (desc0 d acc), mms := List.replicate n { desc := desc0 128 0, pc := 0, order := 0 } }

theorem witness_MmaIssuesOrIsRefused :
    (∀ n, n < 9 → (mma0 128 0 n).takes i0 ∧ (mma0 128 0 n).follows i0)
      ∧ (MmDesc.ofBits ((mma0 128 0 7).coreOf i0).slots[0]).check false = .ok ∧ ((mma0 128 0 7).coreOf i0).mms.length < 8
      ∧ run.clus[0].quiet = true ∧ run.clus[0].ramping = false
      ∧ ({ run with clus := run.clus.set 0 { quiet := false } } : State).clus[0].quiet = false
      ∧ 8 ≤ ((mma0 128 0 8).coreOf i0).mms.length
      ∧ (MmDesc.ofBits (desc0 64 0)).check false = .operand ∧ (MmDesc.ofBits (desc0 128 1)).check false = .notLicensed
      ∧ (MmDesc.ofBits (desc0 0x200000 0)).check false = .operand ∧ (MmDesc.ofBits (descM 2 0x1FFFC0 0)).check false = .address := by
  decide +kernel

/-- Infinity times zero with its trap on, and a poisoned line of A. -/
theorem witness_OldestMatrixOperationCompletes :
    let s : State := { mma0 128 0 2 with clus := run.clus.set 0 { waves := 1, quiet := false } }
    let trap : State := { withCore (fun c => { c with mms := [{ desc := desc0 128 0, pc := 0, order := 0 }], arithCtrl := { invalidTrap := true } }) with
      clus := s.clus, sram := Mem.write [] 0 [0x80, 0x7F] }
    let bad : State := { withCore (fun c => { c with mms := [{ desc := desc0 128 0, pc := 0, order := 0 }], ctrl := { poisonTrap := true } }) with
      clus := s.clus, sramPoison := [0] }
    let d := MmDesc.ofBits (desc0 128 0)
    let fl (u : State) := (((List.range d.m).map (u.mmRow 0 0 (u.core 0 0).seed d .half)).map (·.2)).flatten
    let traps (u : State) := ({ u.core 0 0 with arith := CoreArithStatus.raise {} (fl u) } : Core).arithTraps
    let reads (u : State) (r : Region) : Bool := u.regionPoisoned 0 0 r
    (s.core 0 0).mms = { desc := desc0 128 0, pc := 0, order := 0 } :: [{ desc := desc0 128 0, pc := 0, order := 0 }]
      ∧ (trap.core 0 0).mms = { desc := desc0 128 0, pc := 0, order := 0 } :: [] ∧ (bad.core 0 0).mms = { desc := desc0 128 0, pc := 0, order := 0 } :: []
      ∧ (∀ u ∈ [s, trap, bad], (u.core 0 0).aborting = false ∧ (u.core 0 0).lost = false ∧ u.partLive 0 = true ∧ u.coreEnabled 0 0 = true
        ∧ (u.core 0 0).faulted = false ∧ (u.core 0 0).state ≠ 5)
      ∧ pairingOf d.aFmt d.bFmt = some .half ∧ (∀ u ∈ [s, trap], reads u d.regA = false ∧ reads u d.regB = false) ∧ d.cEn = false
      ∧ Pairing.half.block = 0 ∧ traps s = false ∧ traps trap = true ∧ reads bad d.regA = true
      ∧ (bad.core 0 0).ctrl.poisonTrap = true ∧ (bad.core 0 0).poison.consumed = false := by decide +kernel

/-- `run` with core 0 in an operation of which core 1 also runs. -/
def pair0 : State := { run with cores := [(0, core0), (1, core0)] }

theorem witness_WaitsGoOnOrWait :
    let s := mma0 128 0 2
    let tok : State := { run with parts := run.parts.set 0 { part0 with tokens := [(1023, { armed := true, complete := true })] } }
    let acks : State := { run with mesh := [{ src := .core 0 0, part := 0, space := 0, addr := 0, bytes := [0] }] }
    s.takes i0 ∧ s.follows i0 ∧ (2#16).toNat % 16 ≤ 8 ∧ (s.coreOf i0).mms.length ≤ (2#16).toNat % 16
      ∧ (1#16).toNat % 16 < (s.coreOf i0).mms.length ∧ 8 < (9#16).toNat % 16
      ∧ tok.takes i0 ∧ tok.follows i0 ∧ (1023#16).toNat < 1024 ∧ (tok.token 0 1023).isComplete = true ∧ (tok.token 0 0).isComplete = false
      ∧ (run.coreOf i0).mms = [] ∧ (s.coreOf i0).mms ≠ [] ∧ run.acksDone 0 0 = true ∧ acks.takes i0 ∧ acks.acksDone 0 0 = false
      ∧ 2 < (3#16).toNat ∧ 1 < (2#16).toNat ∧ pair0.takes i0 ∧ pair0.follows i0
      ∧ (pair0.coreOf i0).mms = [] ∧ (pair0.coreOf i0).ctx = some { op := 0, imageBase := 0x10000000, segLen := 64 }
      ∧ (1 : Fin 1024) ∈ pair0.takingPart 0 0 ∧ (pair0.core 0 1).bar = .none := by decide +kernel

theorem witness_CoreRegistersReadAndWrite :
    run.takes i0 ∧ run.follows i0 ∧ 14 ≤ (14#16).toNat
      ∧ ({ core0 with arith := core0.arith.clear 0 } : Core).arithTraps = false
      ∧ ({ core0 with arithCtrl := CoreArithCtrl.ofWord 0 } : Core).arithTraps = false
      ∧ (7#16 : BitVec 16) ≠ 8 ∧ (7#16 : BitVec 16) ≠ 9 ∧ (7#16 : BitVec 16) ≠ 10 := by decide +kernel

theorem witness_TrapAndEndStopTheContext :
    run.takes i0 ∧ (run.coreOf i0).ctx = some { op := 0, imageBase := 0x10000000, segLen := 64 } ∧ (run.coreOf i0).mms = []
      ∧ run.acksDone 0 0 = true ∧ (run.coreOf i0).poison.consumed = false := by decide +kernel

/-- `run` with a binding of core 0's queue 0 to device `d` with `n` credits of 32. -/
def bound0 (d : DeviceNo) (n : BitVec 20) : State :=
  { run with qouts := [(0, { dst := { device := d }, valid := true, st := { nextSlot := 31, credits := n, capacity := 32, granted := true } })] }

theorem witness_QpushSendsWaitsOrFaults :
    let other : State := { run with qouts := [(0, { dst := { device := 5, part := 1 }, valid := true, st := ((bound0 5 4).qout 0 0 0).st })] }
    let broken : State := { run with qouts := [(0, { valid := true, breakReason := 0x0120, st := { broken := true } })] }
    run.takes i0 ∧ run.follows i0 ∧ (run.qout 0 0 0).valid = false ∧ (broken.qout 0 0 0).valid = true ∧ (broken.qout 0 0 0).st.broken = true
      ∧ ((bound0 5 3).qout 0 0 0).valid = true ∧ ((bound0 5 3).qout 0 0 0).st.broken = false ∧ ((bound0 5 3).qout 0 0 0).st.credits.toNat < 4
      ∧ 4 ≤ ((bound0 5 4).qout 0 0 0).st.credits.toNat ∧ (run.coreOf i0).vpoison 0 = false ∧ 0 < ((bound0 5 4).qout 0 0 0).st.capacity.toNat
      ∧ (bound0 5 4).device = some ((bound0 5 4).qout 0 0 0).dst.device ∧ ((bound0 5 4).qout 0 0 0).dst.part = BitVec.ofNat 2 0
      ∧ (other.qout 0 0 0).dst.part ≠ BitVec.ofNat 2 0 ∧ other.device = some (other.qout 0 0 0).dst.device ∧ other.takes i0
      ∧ (other.qout 0 0 0).valid = true ∧ 4 ≤ (other.qout 0 0 0).st.credits.toNat ∧ (bound0 6 4).device ≠ some ((bound0 6 4).qout 0 0 0).dst.device
      ∧ (bound0 5 3).takes i0 ∧ (bound0 6 4).takes i0 := by decide +kernel

/-- A word of zeros with a good tag. -/
def word0 : QWord := { data := 0, parity := 0, fin := true, poison := false }

/-- `run` with an inbound side of core 0's queue 0 that holds words in slots 30, 31 and 0. -/
def side0 (x : QIn) : State := { run with qins := [(0, x)] }

/-- An enabled side with three words that wait across the wrap. -/
def qin0 : QIn := { cfg := { enable := true }, src := { device := 5 }, st := { head := 30, capacity := 32 },
                    words := [(0, some word0), (30, some word0), (31, some word0)] }

theorem witness_QpopTakesWaitsOrFaults :
    let s := side0 qin0
    let f := side0 { qin0 with st := { qin0.st with flushed := true, reason := 0x0120 } }
    let e := side0 { qin0 with words := [(0, some word0), (30, some { word0 with poison := true }), (31, some word0)] }
    s.takes i0 ∧ s.follows i0 ∧ e.takes i0 ∧ (e.qin 0 0 0).waiting.length = 3 ∧ (∃ z ∈ (e.qin 0 0 0).waiting.take 3, z.poison = true)
      ∧ (s.qin 0 0 0).inScree = [] ∧ (s.qin 0 0 0).words.length ≤ 32 ∧ (∀ y, (s.coreOf i0).ctx = some y → y.lane = false)
      ∧ (run.qin 0 0 0).cfg.enable = false ∧ (f.qin 0 0 0).st.flushed = true ∧ f.takes i0
      ∧ (s.qin 0 0 0).cfg.enable = true ∧ (s.qin 0 0 0).cfg.host = false ∧ (s.qin 0 0 0).st.flushed = false
      ∧ (s.qin 0 0 0).waiting.length = 3 ∧ (∀ z ∈ (s.qin 0 0 0).waiting.take 3, z.poison = false ∧ parityOf z.data = z.parity)
      ∧ 0 < (s.qin 0 0 0).st.capacity.toNat := by decide +kernel

theorem witness_QcountReadsThePacketCounter :
    let f := side0 { qin0 with st := { qin0.st with flushed := true } }
    (side0 qin0).takes i0 ∧ (side0 qin0).follows i0 ∧ (run.qin 0 0 0).cfg.enable = false ∧ (f.qin 0 0 0).cfg.enable = true
      ∧ (f.qin 0 0 0).st.flushed = true := by decide +kernel

/-- `run` with an address operand in g1: device, space and offset of stacked memory, LOC; g2 with a RSVD bit set. -/
def put0 (loc device : Nat) : State :=
  withCore fun c => { c with g := (c.g.set 1 (packFields [(0, 40, 0x10000000), (40, 14, device), (63, 1, loc)])).set 2 (packFields [(58, 1, 1)]) }

theorem witness_PutAndRaddCompleteAtIssue :
    let op (s : State) := AddrOp.ofWord ((s.coreOf i0).gr 1)
    (put0 1 0).takes i0 ∧ (put0 1 0).follows i0 ∧ (put0 0 6).takes i0 ∧ (put0 0 6).follows i0 ∧ (1#11 : BitVec 11) ≠ 0
      ∧ (put0 1 0).localAt 0 0 ((put0 1 0).coreOf i0 |>.gr 0).toNat 64 = some 0 ∧ (op (put0 1 0)).formOk = true ∧ (op (put0 1 0)).offset % 4 = 0
      ∧ ((put0 1 0).coreOf i0).mmHolds 0 64 false = false ∧ (put0 1 0).sramPoisoned 0 64 = false
      ∧ (put0 1 0).isLocal 0 (op (put0 1 0)) = true
      ∧ (put0 1 0).extentOk 0 (op (put0 1 0)).space (op (put0 1 0)).unit (op (put0 1 0)).byte 64 = true
      ∧ (op (put0 0 6)).formOk = true ∧ (put0 0 6).isLocal 0 (op (put0 0 6)) = false ∧ (op (put0 0 6)).offset + 64 ≤ 2 ^ 40
      ∧ (put0 0 6).replyFits 0 0 ((put0 0 6).putSlots 0 0 (op (put0 0 6)) false) (packetCuts (64 / 448 + 2) (op (put0 0 6)).byte 64).length = true
      ∧ (put0 0 6).replyFits 0 0 ((put0 0 6).putSlots 0 0 (op (put0 0 6)) true) (packetCuts (64 / 448 + 2) (op (put0 0 6)).byte 64).length = true
      ∧ (put0 0 6).mcastSlot 0 0 (op (put0 0 6)) = none ∧ (put0 1 0).localAt 0 0 (2 ^ 21 - 64) 128 = none
      ∧ (AddrOp.ofWord ((put0 0 6).coreOf i0 |>.gr 2)).formOk = false := by decide +kernel

/-- The operand of `put0 0 6` in an armed multicast slot of core 0; all reply slots of core 0 in use. -/
def armed0 : State :=
  let s := put0 0 6
  s.updPart 0 fun q => { q with colMcast := q.colMcast.set 0 { armed := true, core := 0, device := 6, mask := 6 } }
def used0 : State := { put0 0 6 with reply := (List.range' 0 4096).map fun i => (i, { gen := 0, use := some (.reserved 0) }) }

theorem get_map_range' (x d : ReplySlot) (n : Nat) : ∀ a j, a ≤ j → j < a + n → Table.get d ((List.range' a n).map fun i => (i, x)) j = x := by
  induction n with
  | zero => intro a j h1 h2; omega
  | succ n ih =>
    intro a j h1 h2
    simp only [List.range'_succ, List.map_cons, Table.get]
    split
    · rfl
    · exact ih (a + 1) j (by omega) (by omega)

theorem used0_full (n m : Nat) (hn : 0 < n) : used0.replyFits 0 0 n (m + 1) = false := by
  have h : used0.freeReply 0 0 n = none := by
    unfold State.freeReply firstBelow
    rw [List.find?_eq_none]
    intro i hi hall
    have h0 := List.all_eq_true.mp hall 0 (List.mem_range.mpr hn)
    have hg : used0.replySlot 0 0 (i + 0) = { gen := 0, use := some (.reserved 0) } := by
      unfold State.replySlot used0
      refine get_map_range' _ _ 4096 0 _ (Nat.zero_le _) ?_
      have := List.mem_range.mp hi
      have hk : replyKey 0 0 (i + 0) = i := by
        have h1 : (0 : PartNo).val = 0 := rfl
        have h2 : (0 : BitVec 16).toNat = 0 := rfl
        simp only [replyKey, h1, h2]
        omega
      rw [hk]; omega
    rw [hg] at h0
    simp at h0
  unfold State.replyFits
  rw [h]

theorem witness_PutAndRaddCompleteAtIssue_multicastAndWaits :
    let op (s : State) := AddrOp.ofWord ((s.coreOf i0).gr 1)
    armed0.takes i0 ∧ armed0.follows i0 ∧ (armed0.mcastSlot 0 0 (op armed0)).isSome = true ∧ armed0.isLocal 0 (op armed0) = false
      ∧ armed0.replyFits 0 0 (armed0.putSlots 0 0 (op armed0) false) 1 = true ∧ used0.takes i0 ∧ used0.follows i0
      ∧ used0.putSlots 0 0 (op used0) false = 1 ∧ used0.putSlots 0 0 (op used0) true = 1 ∧ used0.replyFits 0 0 1 1 = false
      ∧ (packetCuts (64 / 448 + 2) (op used0).byte 64).length = 1 := by
  refine ⟨?_, ?_, ?_, ?_, ?_, ?_, ?_, ?_, ?_, used0_full 1 0 (by decide), ?_⟩ <;> decide +kernel

/-- A DMA descriptor of one linear unit of 64 bytes from scratchpad 0 to stacked memory of the partition, with a RSVD bit or none. -/
def dma0 (rsvd : Nat) : BitVec 512 :=
  packFields [(4, 1, rsvd), (64 + 56, 2, 1), (64 + 63, 1, 1), (128, 40, 0x10000000), (128 + 63, 1, 1), (192, 32, 64)]

/-- `run` with the descriptor's bytes at 0 of scratchpad 0, and `n` descriptors in channel 0. -/
def dmaq0 (rsvd n : Nat) : State :=
  { run with
    sram := Mem.write [] 0 (bytesOfNat 64 (dma0 rsvd).toNat)
    dma := run.dma.set 0 { chans := (Vector.replicate 16 {}).set 0 { state := 1, descs := List.replicate n { desc := dma0 0, poster := 0, op := none } } } }

theorem witness_DmaqPostsItsDescriptor :
    let w (s : State) : BitVec 512 := BitVec.ofNat 512 (natOfBytes (Mem.read s.sram 0 64))
    let ok (s : State) : Prop := s.takes i0 ∧ s.follows i0 ∧ s.localAt 0 0 ((s.coreOf i0).gr 0).toNat 64 = some 0
      ∧ (s.coreOf i0).mmHolds 0 64 false = false ∧ s.sramPoisoned 0 64 = false
    ok (dmaq0 0 7) ∧ (dmaq0 0 7).dmaCheck 0 (DmaDesc.ofBits (w (dmaq0 0 7))) = .ok ∧ ((dmaq0 0 7).chan 0 0).descs.length < 8
      ∧ ok (dmaq0 0 8) ∧ (dmaq0 0 8).dmaCheck 0 (DmaDesc.ofBits (w (dmaq0 0 8))) = .ok ∧ 8 ≤ ((dmaq0 0 8).chan 0 0).descs.length
      ∧ ok (dmaq0 1 0) ∧ (dmaq0 1 0).dmaCheck 0 (DmaDesc.ofBits (w (dmaq0 1 0))) = .operand := by decide +kernel

theorem witness_RampWavesQuietAndIssueLevels :
    let s : State := { pair0 with
      clus := run.clus.set 0 { ramping := true, waves := 127, quiet := false }
      cores := [(28, { core0 with bar := .released })] }
    let first : State := { run with clus := run.clus.set 0 { ramping := true, waves := 0, quiet := false } }
    s.clus[0].ramping = true ∧ s.clus[0].waves = BitVec.ofNat 8 (2 ^ 7 - 1) ∧ first.clus[0].ramping = true
      ∧ first.clus[0].waves = BitVec.ofNat 8 (2 ^ 0 - 1) ∧ s.clusterPart 0 = some (0, 0) ∧ (s.core 0 28).bar = .released
      ∧ run.clus[0].ramping = false ∧ (∀ j : Fin 32, (run.core 0 (toFin 1024 (32 * 0 + j.val))).mms = []) := by decide +kernel

theorem witness_HaltFaultReportAndAbortEnd :
    let f := withCore fun c => { c with faulted := true }
    let x : Stream := { seq := 1, mb := { chip := false, part := 0, n := 0 } }
    let g : State := { f with parts := run.parts.set 0 { part0 with stream := some x }, host := { run.host with service := 1 } }
    let a := withCore fun c => { c with aborting := true }
    run.fwLive = true ∧ run.partLive 0 = true ∧ (run.core 0 0).aborting = false
      ∧ (f.core 0 0).faulted = true ∧ (f.core 0 0).state ≠ 5 ∧ (f.core 0 0).aborting = false ∧ (f.core 0 0).mms = [] ∧ f.acksDone 0 0 = true
      ∧ (f.part 0).stream = none ∧ (g.core 0 0).faulted = true ∧ (g.part 0).stream = some x ∧ x.ending = none ∧ g.fwLive = false
      ∧ (a.core 0 0).aborting = true ∧ (a.core 0 0).lost = false ∧ (a.core 0 0).mms = [] ∧ (a.part 0).reset = none := by decide +kernel

/-- `run` with the granule at 0x10000000 of partition 0 written by partition 1. -/
def other0 : State := { run with hbm := { run.hbm with metas := [(349520, some { owner := 1 })] } }

/-- Four wrong symbols whose syndromes no pattern of three has. -/
theorem witness_GranuleReadsCorrectOrPoison :
    run.granuleAt 0 (0x10000000 : Addr40).toNat = some 349520 ∧ run.viewKey 0 349520 ≠ .mismatch
      ∧ other0.granuleAt 0 (0x10000000 : Addr40).toNat = some 349520 ∧ other0.viewKey 0 349520 = .mismatch
      ∧ rsDecode [(0, 4595), (1, 30169), (2, 60338), (3, 36760)] = none := by decide +kernel

/-- `run` with another controller of stack 0. -/
def withMc (x : Mc) : State := { run with hbm := { run.hbm with mcs := run.hbm.mcs.set 0 x } }

/-- The last granule of a stack; the readings around 83.0 and 85.0 °C. -/
theorem witness_ControllerEventsKeepTheirRegisters :
    252645119 < stackPages0 * 16 ∧ 252645119 + 1 = stackPages0 * 16 ∧ 252645118 + 1 ≠ stackPages0 * 16
      ∧ (withMc { copying := [7] }).hbm.mcs[0].copying = 7 :: [] ∧ 1023 < 1024 ∧ 340 ≤ 340 ∧ 331 < 332 ∧ 332 ≤ 332 ∧ 339 < 340 := by
  decide +kernel

/-- A write of 256 bytes to the granule at 0x10000000, one of its last 4 bytes, a RADD of them; a request to scratchpad 0. -/
def req0 (space : BitVec 2) (addr n : Nat) (radd : Bool) : MeshReq :=
  { src := .core 0 0, part := 0, space := space, addr := addr, radd := radd, bytes := List.replicate n 1 }

/-- `run` with a request on the mesh. -/
def onMesh (r : MeshReq) : State := { run with mesh := [r] }

theorem witness_RequestsArePerformedAtTheirPlace :
    let full := req0 0 0x10000000 256 false
    let tail (radd : Bool) := req0 0 (0x10000000 + 252) 4 radd
    let local_ (radd : Bool) := req0 1 (2 ^ 21 - 4) 4 radd
    let away (radd : Bool) : MeshReq := { req0 1 0 4 radd with unit := 32 }
    let foreign : State := { onMesh full with hbm := other0.hbm }
    (∀ r ∈ [full, tail false, tail true, local_ false, local_ true], (onMesh r).mayPerform r = true ∧ r.ack = .none ∧ r.poison = false)
      ∧ (∀ r ∈ [full, tail false, tail true], r.space = 0 ∧ run.placement.locate r.part.val (r.addr / 4096) = some (0, 21845)
        ∧ (run.part r.part).sweep = none ∧ (run.part r.part).dumpSweep = none
        ∧ run.viewKey 0 (granuleKey 0 21845 (r.addr / 256 % 16)) = .data (granuleKey 0 21845 (r.addr / 256 % 16)))
      ∧ full.bytes.length = 256 ∧ full.addr % 256 = 0 ∧ (tail true).bytes.length % 4 = 0 ∧ (tail true).addr % 256 + 4 ≤ 256
      ∧ (local_ true).space ≠ 0 ∧ run.unitOk (local_ true) = true ∧ run.unitOk (local_ false) = true
      ∧ (∀ r ∈ [away true, away false], (onMesh r).mayPerform r = true ∧ r.ack = .none ∧ r.space ≠ 0 ∧ (onMesh r).unitOk r = false)
      ∧ (foreign.mayPerform full = true ∧ foreign.viewKey 0 (granuleKey 0 21845 (full.addr / 256 % 16)) = .mismatch)
      ∧ run.viewKey 0 (granuleKey 0 21845 (full.addr / 256 % 16)) ≠ .mismatch := by decide +kernel

theorem witness_SweepsFillsAndScrubs :
    let s (done : List Nat) := withPart fun q => { q with sweep := some done }
    let g := withPart fun q => { q with genWait := true, gen := { gen := 15, live := 0x8000 } }
    let dg := withPart fun q => { q with dumpGenWait := true }
    let f : State := { run with boot := { run.boot with needFill := 1 } }
    let one : LineErrs := [0]
    let two : LineErrs := [0, 16]
    let flip : LineErrs := [624, 625]
    let burst : LineErrs := (List.finRange 627).filter fun x => 592 ≤ x.val ∧ x.val < 624
    run.placement.owner 0 70000 = some (0, 210002) ∧ dumpPages ≤ 210002 ∧ ((s []).part 0).sweep = some []
      ∧ sweepKey 0 70000 ∉ ([] : List Nat) ∧ ([] : List Nat).length + 1 < (s []).sweepTotal 0
      ∧ (g.part 0).genWait = true ∧ nextGen (g.part 0).gen.gen (g.part 0).gen.live = some 0 ∧ g.draining 0 = false ∧ g.mgmt.change = none
      ∧ (g.part 0).dumpGenWait = false ∧ (g.boot.status.ready = true → g.fwLive = true)
      ∧ (dg.part 0).dumpGenWait = true ∧ (dg.part 0).dumpSweep = none ∧ (dg.part 0).genWait = false ∧ dg.draining 0 = false
      ∧ dg.mgmt.change = none ∧ dg.boot.status.ready = true ∧ dg.fwLive = true
      ∧ voteFlips [] = false ∧ lineOutcome [] = .none ∧ voteFlips one = false ∧ lineOutcome one = .corrected
      ∧ lineOutcome two = .uncorrected ∧ voteFlips flip = true ∧ lineOutcome flip = .none
      ∧ (∀ x ∈ burst, 592 ≤ x.val ∧ x.val < 592 + 32) ∧ (∃ w, w < 16 ∧ wordFlips burst w = 2)
      ∧ f.boot.needFill.getLsbD 0 = true ∧ f.host.layoutMove = none
      ∧ run.partLive 0 = true ∧ 31 < (run.part 0).clusters.length * 32 ∧ 2 ^ 15 - 1 < 2 ^ 15 ∧ 0 < (run.part 0).clusters.length * 1
      ∧ 2 ^ 18 - 1 < 2 ^ 18 := by decide +kernel

/-- A list of any length without a number other than 0. -/
theorem exists_list_without (n k : Nat) (h : k ≠ 0) : ∃ l : List Nat, l.length = n ∧ k ∉ l :=
  ⟨List.replicate n 0, List.length_replicate, fun hm => h (List.eq_of_mem_replicate hm)⟩

/-- A sweep that has one page to go. -/
theorem witness_SweepsFillsAndScrubs_last :
    ∃ done : List Nat, run.sweepTotal 0 ≤ done.length + 1 ∧ sweepKey 0 70000 ∉ done :=
  let ⟨done, hl, hk⟩ := exists_list_without (run.sweepTotal 0) (sweepKey 0 70000) (by decide +kernel)
  ⟨done, Nat.le_trans (Nat.le_of_eq hl.symm) (Nat.le_succ _), hk⟩

/-- `run` whose partition 0 has the scree's range; QIN_CFG with ENABLE and one page at 0x10000000, or at 0. -/
theorem witness_QueueSidesEnableBindFlushReset :
    let cfg (base : Nat) := QinCfg.written (packFields [(0, 1, 1), (12, 28, base), (40, 15, 1)])
    let hc := (QinCfg.written (packFields [(0, 2, 3), (12, 28, 0x10000), (40, 15, 1)]))
    let was := side0 { qin0 with cfg := { enable := true, host := true } }
    (cfg 0x10000).enable = true ∧ (cfg 0x10000).host = false ∧ (cfg 0x10000).screePages.toNat ≤ 16384
      ∧ run.rangeOk 0 ((cfg 0x10000).screeBase.toNat * 4096) ((cfg 0x10000).screePages.toNat * 4096) = true
      ∧ (cfg 0xFFFF).screePages.toNat ≠ 0 ∧ run.rangeOk 0 ((cfg 0xFFFF).screeBase.toNat * 4096) ((cfg 0xFFFF).screePages.toNat * 4096) = false
      ∧ hc.enable = true ∧ hc.screePages.toNat ≠ 0 ∧ (QinCfg.written 0).enable = false ∧ (0#64).getLsbD 29 = false
      ∧ (was.qin 0 0 0).cfg.enable = true ∧ (was.qin 0 0 0).cfg.host = true ∧ (was.qin 0 0 0).st.flushed = false
      ∧ (0x20000000#64).getLsbD 29 = true ∧ ((side0 qin0).qin 0 0 0).cfg.enable = true ∧ ((side0 qin0).qin 0 0 0).cfg.host = false
      ∧ ((side0 qin0).qin 0 0 0).st.flushed = false := by decide +kernel

/-- A packet from device 6's partition 0 to partition 0 of device 5, for core 0 and queue 0. -/
def pkt0 (cls : BitVec 2) (type : BitVec 3) (desc : Line) (data : List (Line × Bool)) : Pkt :=
  { dest := 5, dpart := 0, cls := cls, type := type, src := 6, spart := 0, desc := desc, data := data }

/-- `s` with a packet at a local interface. -/
def delivering (s : State) (p : Pkt) : State := { s with fab := { s.fab with deliver := [p] } }

/-- A packet of two words for slots 31 and 0. -/
def words0 : Pkt := pkt0 2 0 (mkDesc [(0, 0, 20, 31)]) [(0, false), (0, false)]

/-- An inbound side whose producer is device 6's core 0, and one with another producer; the binding to device 6. -/
def qinFrom6 : QIn := { cfg := { enable := true }, src := { device := 6 }, st := { head := 31, capacity := 32 } }
def qout6 (granted : Bool) : State :=
  { run with qouts := [(0, { dst := { device := 6 }, valid := true, unacked := 4, st := { credits := 30, capacity := 32, granted := granted } })] }

theorem witness_QueuePacketsReachTheirSides :
    let s (x : QIn) : State := { side0 x with words := [(words0, [0, 1])] }
    let hosted : QIn := { qinFrom6 with cfg := { enable := true, host := true, screeBase := 0x10000, screePages := 1 } }
    let off : QIn := { qinFrom6 with cfg := {} }
    let last : State := { side0 qinFrom6 with words := [(words0, [1])] }
    let flush := pkt0 3 3 (mkDesc [(0, 0, 16, 0x120), (2, 0, 1, 1)]) []
    let d (p : Pkt) (x : State) := delivering x p
    let grant := pkt0 1 3 (mkDesc [(0, 0, 20, 32), (4, 0, 20, 31)]) []
    let credit := pkt0 1 4 (mkDesc [(0, 0, 20, 4)]) []
    let qack := pkt0 1 5 (mkDesc [(4, 0, 3, 4)]) []
    let ask := pkt0 3 2 0 []
    let note := pkt0 3 3 (mkDesc [(0, 0, 16, 0x120)]) []
    (d words0 run).delivers words0 2 0 ∧ words0.mark = false
      ∧ (d words0 run).wordHeld words0 = false ∧ (d { words0 with mark := true } (side0 qinFrom6)).delivers { words0 with mark := true } 2 0
      ∧ (∀ u ∈ [s qinFrom6, s hosted, s off, s qin0], u.words.find? (fun e => e.1 == words0) = some (words0, [0, 1])
        ∧ u.wordFirst (words0, [0, 1]) 0 = true)
      ∧ last.words.find? (fun e => e.1 == words0) = some (words0, [1]) ∧ last.wordFirst (words0, [1]) (1 : Fin 4).val = true
      ∧ qinFrom6.inScree = [] ∧ qinFrom6.words.length < 32 ∧ hosted.cfg.host = true ∧ wordsPeer words0 = hosted.src ∧ off.cfg.enable = false
      ∧ (s qinFrom6).partLive (pktPart words0) = true ∧ ((s qinFrom6).qin (pktPart words0) (pktQueue words0).1 (pktQueue words0).2) = qinFrom6
      ∧ qinFrom6.cfg.enable = true ∧ qinFrom6.cfg.host = false ∧ qinFrom6.st.flushed = false ∧ wordsPeer words0 = qinFrom6.src
      ∧ wordsPeer words0 ≠ qin0.src ∧ qin0.st.flushed = false
      ∧ (d flush (side0 qinFrom6)).delivers flush 3 3 ∧ Pkt.field flush 2 0 1 = 1 ∧ BitVec.ofNat 16 (Pkt.field flush 0 0 16) ≠ (0 : Code)
      ∧ (d grant (qout6 false)).delivers grant 1 3 ∧ ((qout6 false).qout 0 0 0).valid = true ∧ ((qout6 false).qout 0 0 0).st.granted = false
      ∧ fromPeer grant ((qout6 false).qout 0 0 0).dst = true ∧ (d grant (qout6 true)).delivers grant 1 3
      ∧ ((qout6 true).qout 0 0 0).st.granted = true ∧ (d credit (qout6 true)).delivers credit 1 4 ∧ Pkt.field credit 4 0 1 = 0
      ∧ fromPeer credit ((qout6 true).qout 0 0 0).dst = true ∧ (d qack (qout6 true)).delivers qack 1 5
      ∧ (d ask (side0 qinFrom6)).delivers ask 3 2 ∧ qinFrom6.src
        = ⟨ask.src, ask.spart, BitVec.ofNat 10 (Pkt.field ask 0 0 10), BitVec.ofNat 3 (Pkt.field ask 0 10 3), BitVec.ofNat 8 (Pkt.field ask 2 0 8)⟩
      ∧ (d note (qout6 true)).delivers note 3 3 ∧ ((qout6 true).qout 0 0 0).st.broken = false ∧ Pkt.field note 2 0 1 = 0 := by
  dsimp only
  and_intros <;> decide +kernel

/-- A host queue in slot 0 with words in slots 58, 59 and 0 of 60, all but the last stored in the scree. -/
def hostQ0 (tail : BitVec 20) : State :=
  { withPart (fun q => { q with hostQs := q.hostQs.set 0 { cfg := { active := true }, head := 58, tail := { tail := tail } } })
    with qins := [(0, { cfg := { enable := true, host := true }, st := { head := 58, capacity := 60 }, storing := [0],
                        words := [(0, some word0), (58, some { word0 with fin := false }), (59, some word0)] })] }

theorem witness_HostQueuesAdvanceHeadAndTail :
    let s := hostQ0 0
    let h := (s.part 0).hostQs[0]
    s.asleep = false ∧ s.owner 0 = false ∧ s.partExists 0 = true ∧ h.cfg.active = true ∧ h.side = (0, 0) ∧ (s.qin 0 0 0).st.capacity.toNat = 60
      ∧ (0#32).toNat % 2 ^ 20 < 60 ∧ (0#32).toNat % 2 ^ 20 ≠ h.head.toNat ∧ h.head.toNat < 60
      ∧ wordDistance 60 h.head.toNat ((0#32).toNat % 2 ^ 20) ≤ h.waiting 60 ∧ s.owner 0 ≠ true ∧ (run.part 0).hostQs[0].cfg.active = false
      ∧ 60 ≤ (60#32).toNat % 2 ^ 20 ∧ h.waiting 60 < wordDistance 60 h.head.toNat ((1#32).toNat % 2 ^ 20)
      ∧ Table.get none ((hostQ0 59).qin 0 0 0).present 59 = some word0 ∧ word0.fin = true
      ∧ Table.get none ((hostQ0 58).qin 0 0 0).present 58 = some { word0 with fin := false }
      ∧ ((hostQ0 59).part 0).hostQs[0].tail.full = false ∧ ((hostQ0 59).part 0).hostQs[0].cfg.active = true := by decide +kernel

/-- `run` with another channel 0 of cluster 0, and its engine's status. -/
def chan0 (st : DmaEngStatus) (settled : Bool) (c : DmaChan) : State :=
  { run with dma := run.dma.set 0 { status := st, settled := settled, chans := (Vector.replicate 16 {}).set 0 c } }

/-- A channel at the start of the descriptor `dma0`, outside a stream. -/
def work0 (desc : BitVec 512) : DmaChan := { state := 1, descs := [{ desc := desc, poster := 0, op := none }] }

theorem eq_ok {α β : Type} [DecidableEq β] (e : Except α β) (v : β)
    (h : (match e with | .ok x => decide (x = v) | .error _ => false) = true) : e = .ok v := by
  cases e <;> simp_all

theorem eq_error {α β : Type} [DecidableEq α] (e : Except α β) (v : α)
    (h : (match e with | .error x => decide (x = v) | .ok _ => false) = true) : e = .error v := by
  cases e <;> simp_all

/-- A unit from stacked memory to scratchpad 0, one to and one from device 6. -/
def stack0 : BitVec 512 := packFields [(64, 40, 0x10000000), (64 + 63, 1, 1), (128 + 56, 2, 1), (128 + 63, 1, 1), (192, 32, 64)]
def there0 : BitVec 512 := packFields [(64 + 56, 2, 1), (64 + 63, 1, 1), (128, 40, 0x10000000), (128 + 40, 14, 6), (192, 32, 64)]
def away0 : BitVec 512 := packFields [(64, 40, 0x10000000), (64 + 40, 14, 6), (128 + 56, 2, 1), (128 + 63, 1, 1), (192, 32, 64)]

theorem witness_DmaTransfersIssueAndComplete :
    let s := chan0 {} true (work0 (dma0 0))
    let d := DmaDesc.ofBits (dma0 0)
    let e := DmaDesc.ofBits (packFields [(64, 40, 2 ^ 40 - 64), (64 + 63, 1, 1), (128, 40, 0x10000000), (128 + 63, 1, 1), (192, 32, 128)])
    let f := DmaDesc.ofBits stack0
    let out := DmaDesc.ofBits there0
    let inn := DmaDesc.ofBits away0
    let reads := chan0 {} true (work0 stack0)
    let busy : State := { reads with mesh := [{ src := .dma 0 0, part := 0, space := 0, addr := 0x10000000, bytes := [0] }] }
    let other : State := { reads with hbm := other0.hbm }
    let done := chan0 {} true { work0 (dma0 0) with nextUnit := 1 }
    s.clusterPart 0 = some (0, 0) ∧ (s.chan 0 0).descs = { desc := dma0 0, poster := 0, op := none } :: [] ∧ (s.chan 0 0).state = 1
      ∧ s.dma[0].status.stopped = false ∧ s.partLive 0 = true ∧ d.kind < 2 ∧ (s.chan 0 0).nextUnit < d.units ∧ s.dma[0].outstanding < 512
      ∧ s.replyFits 0 (BitVec.ofNat 16 0x400) 1 1 = true ∧ (s.chan 0 0).out = []
      ∧ s.reqAddr 0 d.src d.srcW (d.src.byte + d.shift false 0 0) 64 = .ok 0
      ∧ s.reqAddr 0 d.dst d.dstW (d.dst.byte + d.shift true 0 0) 64 = .ok 0x10000000 ∧ s.isLocal 0 d.src = true ∧ s.isLocal 0 d.dst = true
      ∧ d.src.space ≠ 0 ∧ s.reqAddr 0 e.src e.srcW (e.src.byte + e.shift false 0 0 + 64) 64 = .error (2 ^ 63, true)
      ∧ s.reqAddr 0 f.src f.srcW (f.src.byte + f.shift false 0 0) 64 = .ok 0x10000000
      ∧ s.reqAddr 0 f.dst f.dstW (f.dst.byte + f.shift true 0 0) 64 = .ok 0 ∧ s.isLocal 0 f.src = true ∧ f.src.space = 0 ∧ f.kind < 2 ∧ 0 < f.units
      ∧ reads.readWaits (.dma 0 0) 0 0x10000000 64 = false ∧ reads.ownerClash 0 0x10000000 64 = false
      ∧ busy.readWaits (.dma 0 0) 0 0x10000000 64 = true ∧ other.readWaits (.dma 0 0) 0 0x10000000 64 = false
      ∧ other.ownerClash 0 0x10000000 64 = true
      ∧ (∀ u : DmaDesc, u ∈ [out, inn] → u.kind < 2 ∧ 0 < u.units) ∧ s.isLocal 0 out.src = true ∧ out.src.space ≠ 0 ∧ s.isLocal 0 out.dst = false
      ∧ s.isLocal 0 inn.src = false
      ∧ s.reqAddr 0 out.src out.srcW (out.src.byte + out.shift false 0 0) 64 = .ok 0
      ∧ s.reqAddr 0 out.dst out.dstW (out.dst.byte + out.shift true 0 0) 64 = .ok 0x10000000
      ∧ s.reqAddr 0 inn.src inn.srcW (inn.src.byte + inn.shift false 0 0) 64 = .ok 0x10000000
      ∧ s.reqAddr 0 inn.dst inn.dstW (inn.dst.byte + inn.shift true 0 0) 64 = .ok 0
      ∧ d.units ≤ (done.chan 0 0).nextUnit ∧ (done.chan 0 0).failUnit = none ∧ d.notify = false := by
  dsimp only
  and_intros <;> first | decide +kernel | exact eq_ok _ _ (by decide +kernel) | exact eq_error _ _ (by decide +kernel)

/-- A request of channel 0, number 3. -/
def piece0 : DmaPiece := { seq := 3, unit := 0, dst := 0, dstAddr := 0, len := 64, reading := false, addr := 0x10000000 }

theorem witness_DmaErrorsResumeCancelAndInterrupts :
    let out := chan0 {} true { work0 (dma0 0) with out := [piece0] }
    let stopped := chan0 { stopped := true, failedCh := 0, code := 0x0209 } false { work0 (dma0 0) with state := 3 }
    let settled := chan0 { stopped := true, failedCh := 0, code := 0x0209 } true { work0 (dma0 0) with state := 3 }
    let irq := chan0 {} true { irqPending := true, irqVector := some 7 }
    let cancelled := chan0 {} true { state := 4 }
    run.clusterPart 0 = some (0, 0) ∧ (out.chan 0 0).out.find? (fun y => y.seq == 3 && y.data.isNone) = some piece0 ∧ out.dma[0].status.stopped = false
      ∧ stopped.dma[0].status.stopped = true ∧ stopped.dma[0].settled = false ∧ (∀ i : Fin 16, stopped.dma[0].chans[i].out = [])
      ∧ stopped.partLive 0 = true ∧ stopped.dma[0].chans[toFin 16 stopped.dma[0].status.failedCh.toNat].descs = { desc := dma0 0, poster := 0, op := none } :: []
      ∧ settled.fwLive = true ∧ (settled.chan 0 0).state = 3 ∧ settled.dma[0].settled = true
      ∧ (settled.chan 0 0).descs = { desc := dma0 0, poster := 0, op := none } :: [] ∧ (irq.chan 0 0).irqPending = true
      ∧ (irq.chan 0 0).irqVector = some 7 ∧ (cancelled.chan 0 0).state = 4 ∧ (cancelled.chan 0 0).cancelled = [] := by decide +kernel

/-- `run` whose host side is changed. -/
def withHost (f : HostSide → HostSide) : State := { run with host := f run.host }

/-- Port A with its link up. -/
def upA : State := withHost fun h => { h with ports := h.ports.set 0 { up := true } }

theorem witness_PortsAndWindowsServeTheirHost :
    let rest : State := { upA with clocks := { upA.clocks with pkg := .ps3 } }
    let held : State := upA.updPart 0 fun q => { q with state := 4 }
    let wrote : State := { upA with mesh := [{ src := .host false, part := 0, space := 0, addr := 0x10000000, bytes := [0] }] }
    let mid : State := { upA with boot := { upA.boot with status := { ready := true } } }
    upA.boot.status.halted = false ∧ upA.clocks.pkg ≠ .ps4 ∧ (upA.hostPort false).up = true
      ∧ upA.bar2Ok false 0x10000000 4 false = true ∧ upA.bar2Ok false 0x10000000 4 true = true ∧ upA.bar2Held (upA.bar2At false 0x10000000).1 = false
      ∧ (∀ y ∈ pieces 0 (upA.bar2At false 0x10000000).2 4, upA.view (upA.bar2At false 0x10000000).1 y.1 ≠ .poison)
      ∧ upA.bar2Ok false (0x10000000 - 1) 4 true = false ∧ upA.bar2Ok false (2 ^ 36 - 1) 4 false = false
      ∧ upA.sees false 0 = true ∧ upA.readForm false 0 4 = true ∧ upA.sees true 0 = false ∧ (mid.hostPort true).up = false
      ∧ ((withHost fun h => { h with ports := h.ports.set 1 { up := true } }).hostPort true).up = true
      ∧ upA.partExists 0 = true ∧ upA.owner 0 = false ∧ upA.resetting = false ∧ upA.owner 0 ≠ true
      ∧ (rest.hostPort false).up = true ∧ rest.asleep = true ∧ upA.asleep = false ∧ (upA.hostPort false).held = []
      ∧ upA.readWaits (.host false) 0 0x10000000 4 = false ∧ wrote.readWaits (.host false) 0 0x10000000 4 = true ∧ wrote.asleep = false
      ∧ upA.mayServe false [] (.bar2Read 0x10000000 4) = true ∧ wrote.mayServe false [] (.bar2Read 0x10000000 4) = false
      ∧ wrote.bar2Ok false 0x10000000 4 false = true ∧ upA.ownerClash 0 0x10000000 4 = false
      ∧ held.asleep = false ∧ held.bar2Held 0 = true ∧ held.mayServe false [] (.bar2Write 0x10000000 [0] false) = false := by decide +kernel

/-- Mailboxes: partition 0's number 0, the chip's number 15. -/
def mb0 : MbId := { chip := false, part := 0, n := 0 }
def mbC : MbId := { chip := true, part := 0, n := 15 }

/-- `run` with the two mailboxes. -/
def withMb (x y : Mailbox) : State := withHost fun h => { h with mailboxes := [(0, x), (271, y)] }

theorem witness_MailboxesPostScanAndFree :
    let s := withMb { status := { state := 3 } } { status := { state := 3 } }
    let m : State := { s with host := { s.host with ownerMove := some (271, true) } }
    let busy := onMesh { src := .host false, part := 0, space := 0, addr := 0x10000000, bytes := [0] }
    let p := withMb { status := { state := 1 } } {}
    let full : State := { run with host := { run.host with chipEvt := { tail := { tail := 257 } } } }
    run.asleep = false ∧ (run.hostPort false).held = [] ∧ busy.hostWrites false = true ∧ busy.asleep = false
      ∧ run.seesMb false mb0 = true ∧ run.resetting = false ∧ run.hostWrites false = false ∧ (run.mailbox mb0).status.state = 0
      ∧ s.seesMb false mb0 = true ∧ (s.mailbox mb0).status.state = 3 ∧ s.host.ownerMove = none ∧ mbKey mbC ≠ mbKey mb0
      ∧ m.seesMb false mbC = true ∧ (m.mailbox mbC).status.state = 3 ∧ mbC.chip = true ∧ m.host.ownerMove = some (mbKey mbC, true)
      ∧ run.seesMb true mb0 = false ∧ (s.mailbox mb0).status.state ≠ 0 ∧ (run.mailbox mb0).status.state ≠ 3
      ∧ p.fwLive = true ∧ p.boot.status.ready = true ∧ p.clocks.pkg = .run ∧ scanMb 16 = mb0 ∧ (p.mailbox (scanMb 16)).status.state = 1
      ∧ (p.part 0).state ≠ 1 ∧ (p.mailbox (scanMb 271)).status.state ≠ 1
      ∧ full.seesLog false none = true ∧ full.resetting = false ∧ ((full.evtLog none).tail.tail - (EvtCtrl.ofWord 1).head).toNat ≤ 256
      ∧ 256 < ((full.evtLog none).tail.tail - (EvtCtrl.ofWord 0).head).toNat := by decide +kernel

/-- A command's 64 bytes: opcode, and arguments as (offset, low bit, width, value). -/
def cmdOf (opcode : Nat) (args : List (Nat × Nat × Nat × Nat)) : BitVec 512 :=
  packFields ((0, 16, opcode) :: args.map fun f => (8 * f.1 + f.2.1, f.2.2.1, f.2.2.2))

/-- `s` with an accepted command in a mailbox. -/
def accepting (s : State) (mb : MbId) (opcode : Nat) (args : List (Nat × Nat × Nat × Nat)) : State :=
  s.setMailbox mb { cmd := cmdOf opcode args, status := { state := 2 }, seq := 7 }

/-- A stratum record at 0x10000000 with one segment of 64 bytes at 0x10001000, for one cluster of one core. -/
def header0 : BitVec 2048 :=
  packFields [(0, 32, 0x41525453), (32, 8, 1), (64, 6, 1), (72, 6, 1), (8 * 0x10, 40, 0x10001000), (8 * 0x18, 32, 64), (8 * 0x1C, 16, 1),
    (8 * 0x20, 40, 0x10000100), (8 * 0x58, 40, 0x10002000)]
def stratum0 : Stratum := { header := header0, segs := [packFields [(32, 32, 64)]], queues := [], addr := 0x10000000, len := 512 }

/-- `run` with the record in memory: its first granule lies at byte 256 × 349520. -/
def record0 : State :=
  { run with hbm := { run.hbm with
      data := Mem.write (Mem.write [] (256 * 349520) (bytesOfNat 256 header0.toNat)) (256 * 349521) (bytesOfNat 16 (2 ^ 32 * 64)) } }

theorem witness_PartitionCommandsForChannelsAndStrata :
    let stopped (st : BitVec 3) := accepting (chan0 { stopped := true } true { work0 (dma0 0) with state := st }) mb0 0x30 [(0xC, 0, 16, 1)]
    let reg := accepting record0 mb0 0x20 [(8, 0, 6, 7), (0x10, 0, 64, 0x10000000), (0x18, 0, 32, 512)]
    let bad := accepting run mb0 0x20 [(8, 0, 6, 8)]
    let drop := accepting (withPart fun q => { q with strata := [(7, stratum0)], prepared := { stratum := 7, valid := true } }) mb0 0x21 [(8, 0, 6, 7)]
    mb0.chip = false ∧ (accepting run mb0 1 []).accepted mb0 1 = true ∧ (accepting run mb0 2 []).accepted mb0 2 = true
      ∧ (stopped 3).accepted mb0 0x30 = true ∧ ((stopped 3).mailbox mb0).arg 0xC 0 16 = 1
      ∧ ((List.finRange 16).filter fun c => (((stopped 3).mailbox mb0).arg 0xC 0 16).testBit c.val) = [0] ∧ ((stopped 3).chan 0 0).state = 3
      ∧ ((stopped 2).chan 0 0).state = 2 ∧ (stopped 3).dma[0].settled = true ∧ ((stopped 1).chan 0 0).state ≠ 2 ∧ ((stopped 1).chan 0 0).state ≠ 3
      ∧ (stopped 1).accepted mb0 0x30 = true ∧ (accepting run mb0 0x31 []).accepted mb0 0x31 = true
      ∧ reg.accepted mb0 0x20 = true ∧ reg.stratumCheck 0 7 0x10000000 512 = .ok stratum0 ∧ bad.accepted mb0 0x20 = true
      ∧ bad.stratumCheck 0 8 0 0 = .error 0x0105 ∧ drop.accepted mb0 0x21 = true ∧ (drop.stratum 0 7).isSome = true ∧ (drop.part 0).stream = none
      ∧ (drop.part 0).prepared.stratum.toNat = 7 ∧ (accepting run mb0 0x21 []).accepted mb0 0x21 = true
      ∧ (accepting run mb0 0x21 []).stratum 0 0 = none := by
  refine ⟨?_, ?_, ?_, ?_, ?_, ?_, ?_, ?_, ?_, ?_, ?_, ?_, ?_, ?_, eq_ok _ _ ?_, ?_, eq_error _ _ ?_, ?_, ?_, ?_, ?_, ?_, ?_⟩ <;> decide +kernel

/-- A stream of one fence. -/
def op0 (code : Nat) (fs : List (Nat × Nat × Nat)) : BitVec 512 :=
  packFields ((0, 8, code) :: (8, 2, 1) :: (32, 16, 0xFFFF) :: (64, 64, 2 ^ 64 - 1) :: fs)
def stream0 (w : BitVec 512) : Stream :=
  { seq := 1, mb := mb0, phases := 1, opened := 1, ops := [w], opStates := [.waiting], ranks := [5], jobs := [{ stratum := 0, seed := 0 }] }

/-- `run` with the stream running, and stratum 0 registered. -/
def streaming (x : Stream) : State :=
  withPart fun q => { q with state := 3, stream := some x, strata := [(0, stratum0)], strmStatus := { seq := x.seq, state := 2 } }

theorem witness_PartitionCommandsForStreamsAndRecords :
    let waiting := accepting (accepting (withPart fun q => { q with queue := [(1, { mb0 with n := 1 })] }) { mb0 with n := 1 } 0x10 []) mb0 0x11 [(8, 0, 48, 1)]
    let w : State := waiting.setMailbox { mb0 with n := 1 } { cmd := cmdOf 0x10 [], status := { state := 2 }, seq := 1 }
    let abort := accepting (streaming (stream0 (op0 4 []))) mb0 0x11 [(8, 0, 48, 1)]
    let rec_ : EnergyRec := ⟨0, 0, 0, false, false, 0, 0, 0, 0, 0, 0, 0⟩
    let energy := accepting (withPart fun q => { q with records := [rec_] }) mb0 0x60 [(0x10, 0, 64, 0x10000000)]
    let held := accepting (withPart fun q => { q with dumpHeld := true }) mb0 0x51 []
    let sweeps := accepting (withPart fun q => { q with dumpHeld := true, dumpSweep := some [] }) mb0 0x51 []
    let open_ (d : Dump) := accepting (withPart fun q => { q with dump := some d }) mb0 0x51 []
    let d0 : Dump := { slot := 0, level := 3, trigger := 0, core := 0, start := 0, seq := 0 }
    let due : ResetReq := { level := 3, trigger := 0x0705, mbs := [{ mb0 with n := 2 }] }
    let joins := accepting (withPart fun q => { q with reset := some due }) mb0 0x50 []
    let off : State := { accepting run mb0 0x50 [] with rcv := { run.rcv with config := { run.rcv.config with dumpEn := false } } }
    let on : State := { accepting run mb0 0x50 [] with rcv := { run.rcv with config := { run.rcv.config with dumpEn := true } } }
    mb0.chip = false ∧ (accepting run mb0 0x10 []).accepted mb0 0x10 = true ∧ (run.part 0).stream = none ∧ (run.part 0).queue = []
      ∧ w.accepted mb0 0x11 = true ∧ (w.part 0).stream = none ∧ (w.part 0).queue.find? (fun e => e.1 == 1) = some (1, { mb0 with n := 1 })
      ∧ mbKey { mb0 with n := 1 } ≠ mbKey mb0 ∧ (w.mailbox { mb0 with n := 1 }).seq ≠ (w.mailbox mb0).seq
      ∧ (w.mailbox { mb0 with n := 1 }).seq.toNat % 4096 ≠ (w.mailbox mb0).seq.toNat % 4096
      ∧ abort.accepted mb0 0x11 = true ∧ (abort.part 0).stream = some (stream0 (op0 4 [])) ∧ (stream0 (op0 4 [])).seq = BitVec.ofNat 48 ((abort.mailbox mb0).arg 8 0 48)
      ∧ mb0 ∉ (stream0 (op0 4 [])).aborters ∧ (accepting run mb0 0x40 []).accepted mb0 0x40 = true
      ∧ energy.accepted mb0 0x60 = true ∧ (energy.part 0).records.filter (fun r => r.seq == BitVec.ofNat 48 ((energy.mailbox mb0).arg 8 0 48)) ≠ []
      ∧ energy.rangeOk 0 ((energy.mailbox mb0).arg 0x10 0 64) (64 * 1) = true
      ∧ held.accepted mb0 0x51 = true ∧ (held.part 0).dumpSweep = none ∧ (held.part 0).dump = none ∧ (held.part 0).dumpHeld = true
      ∧ (accepting run mb0 0x51 []).accepted mb0 0x51 = true ∧ (run.part 0).dumpHeld = false
      ∧ on.accepted mb0 0x50 = true ∧ (on.part 0).reset = none ∧ on.rcv.config.dumpEn = true ∧ on.boot.status.ready = true ∧ (on.part 0).state ≠ 0
      ∧ off.accepted mb0 0x50 = true ∧ (off.part 0).reset = none ∧ off.rcv.config.dumpEn = false
      ∧ sweeps.accepted mb0 0x51 = true ∧ (sweeps.part 0).dumpSweep ≠ none ∧ (sweeps.part 0).dump = none ∧ (sweeps.part 0).dumpHeld = true
      ∧ (open_ d0).accepted mb0 0x51 = true ∧ ((open_ d0).part 0).dump ≠ none
      ∧ joins.accepted mb0 0x50 = true ∧ (joins.part 0).reset = some due ∧ due.level = 3 ∧ mb0 ∉ due.mbs := by decide +kernel

/-- `run` with dumps enabled. -/
def dumping : State := { run with rcv := { run.rcv with config := { run.rcv.config with dumpEn := true } } }

theorem witness_ChipCommandsTakeEffect :
    let activate := accepting { run with mgmt := { run.mgmt with fw := { slot1Valid := true } } } mbC 0x120 []
    let licence (n : Nat) := accepting run mbC 0x121 [(0x10, 0, 64, 0x10000000), (0x18, 0, 64, n)]
    mbC.chip = true ∧ (accepting run mbC 0x100 []).accepted mbC 0x100 = true ∧ run.host.layoutMove = none ∧ run.partExists 0 = true
      ∧ (run.part 0).state ≠ 0 ∧ (∀ r, run.partExists r = true → (run.part r).reset = none)
      ∧ (accepting dumping mbC 0x101 []).accepted mbC 0x101 = true ∧ (dumping.part 0).reset = none ∧ dumping.rcv.config.dumpEn = true
      ∧ dumping.boot.status.ready = true ∧ (accepting run mbC 0x102 []).accepted mbC 0x102 = true
      ∧ (accepting dumping mbC 0x110 []).accepted mbC 0x110 = true ∧ dumping.rcv.chip = none ∧ dumping.cpRuns = true ∧ dumping.partLive 0 = true
      ∧ (accepting run mbC 0x111 []).accepted mbC 0x111 = true ∧ activate.accepted mbC 0x120 = true ∧ activate.activateCheck true = 0
      ∧ activate.activateCheck false ≠ 0 ∧ (licence 160).accepted mbC 0x121 = true ∧ ((licence 160).mailbox mbC).arg 0x18 0 64 = 160
      ∧ (licence 160).rangeOk 0 0x10000000 160 = true ∧ ((licence 160).stackRead 0 0x10000000 160).2 = false
      ∧ ((licence 0).mailbox mbC).arg 0x18 0 64 ≠ 160 := by decide +kernel

/-- `stream0`'s bytes: a header at 0x10003000, the record after it, one rank at 0x10003800. -/
def text0 : List Byte :=
  bytesOfNat 64 (packFields (n := 512) [(0, 32, 0x4D525453), (32, 8, 1), (64, 32, 1), (96, 16, 1), (8 * 0x18, 40, 0x10003800),
    (8 * 0x20, 16, 1)]).toNat ++ bytesOfNat 64 (op0 4 []).toNat

/-- `run` with a STREAM_START of it waiting, and stratum 0 registered. -/
def start0 (len : Nat) : State :=
  accepting { withPart (fun q => { q with queue := [(1, mb0)], strata := [(0, stratum0)] }) with
    hbm := { run.hbm with data := Mem.write (Mem.write [] (256 * (2 ^ 28 + 349536)) text0) (256 * (2 ^ 28 + 349544)) [5] } } mb0 0x10
    [(8, 0, 64, 0x10003000), (0x10, 0, 32, len)]

/-- `stream0` in progress, its operation with a code and operand fields; a second stratum, resident as number 1. -/
def doing (code : Nat) (fs : List (Nat × Nat × Nat)) : State :=
  withPart fun q => { q with state := 3, stream := some (stream0 (op0 code fs)), strata := [(0, stratum0), (1, stratum0)], strmStatus := { seq := 1, state := 2 } }

theorem witness_StreamsBeginAndStartOperations :
    let ready (code : Nat) (fs : List (Nat × Nat × Nat)) := (doing code fs).opReady 0 0 (stream0 (op0 code fs)) (op0 code fs)
    ((start0 128).part 0).stream = none ∧ firstWaiting ((start0 128).part 0).queue = some (1, mb0) ∧ (start0 128).fwLive = true
      ∧ (start0 128).earlierStart 0 1 = false ∧ (start0 128).partLive 0 = true ∧ bitsAt (start0 128).clocks.ps.partState.toNat 0 2 = 0
      ∧ ((match (start0 128).validate 0 0x10003000 128 0 with | .ok y => decide (y.ops = [op0 4 []] ∧ y.ranks = [5]) | .error _ => false) = true)
      ∧ ((match (start0 64).validate 0 0x10003000 64 0 with | .ok _ => false | .error c => decide (c = 0x0102)) = true)
      ∧ ready 1 [(8 * 0x14, 32, 1), (8 * 0x18, 32, 1)] ∧ opCode (op0 1 [(8 * 0x14, 32, 1), (8 * 0x18, 32, 1)]) = 1
      ∧ ready 2 [(8 * 0x12, 12, 1)] ∧ opCode (op0 2 [(8 * 0x12, 12, 1)]) = 2 ∧ ready 3 [] ∧ opCode (op0 3 []) = 3
      ∧ (doing 3 []).current 0 = some stratum0 ∧ ready 4 [] ∧ opCode (op0 4 []) = 4 ∧ ready 8 [(8 * 0x10, 6, 1)]
      ∧ opCode (op0 8 [(8 * 0x10, 6, 1)]) = 8 ∧ ((doing 8 []).stratum 0 1).isSome = true ∧ ready 8 [(8 * 0x10, 6, 2)]
      ∧ (doing 8 []).stratum 0 2 = none ∧ opField (op0 8 [(8 * 0x10, 6, 1)]) 0x10 0 6 = 1 := by
  dsimp only
  and_intros <;> decide +kernel

theorem witness_BarriersCollectivesAndCompletions :
    let two (w : BitVec 512) : Stream := { stream0 w with ranks := [5, 6] }
    let at_ (x : Stream) := withPart fun q => { q with state := 3, stream := some x, strata := [(0, stratum0)], strmStatus := { seq := 1, state := 2 } }
    let bar := op0 5 []
    let began : Stream := { two bar with opStates := [.started], rounds := [(0, 0)] }
    let coll (elems : Nat) := op0 6 [(8 * 0x20 + 63, 1, 1), (8 * 0x28 + 63, 1, 1), (8 * 0x30, 32, elems)]
    let grouped (elems : Nat) : Stream := { two (coll elems) with groups := [{ number := 0, ranks := [0, 1], lanes := [⟨0, 0, 0⟩] }] }
    let begun (x : Stream) (s : State) := (s.updPart 0 fun q => { q with
      stream := some { x with opStates := x.opStates.set 0 .started }, strmPos := ({ x with opStates := x.opStates.set 0 .started } : Stream).pos q.strmPos }).openPhases 0 x.phases
    let done (w : BitVec 512) : Stream := { two w with opStates := [.started] }
    let notLast : Stream := { done (op0 4 []) with ops := [op0 4 [], op0 4 []], opStates := [.started, .waiting] }
    (at_ (two bar)).opReady 0 0 (two bar) bar ∧ opCode bar = 5 ∧ 1 < (two bar).ranks.length
      ∧ ((at_ began).part 0).stream = some began ∧ began.rounds.lookup 0 = some 0 ∧ 0 < barrierRounds began.ranks.length ∧ began.opStates[0]? = some .started
      ∧ (at_ (grouped 16)).opReady 0 0 (grouped 16) (coll 16) ∧ opCode (coll 16) = 6
      ∧ (begun (grouped 16) (at_ (grouped 16))).current 0 = some stratum0 ∧ collectiveOk stratum0 (coll 16) = true ∧ opField (coll 16) 0x12 0 2 ≠ 2
      ∧ (grouped 16).groups.find? (fun g => g.number == BitVec.ofNat 16 (opField (coll 16) 0x10 0 16)) = some { number := 0, ranks := [0, 1], lanes := [⟨0, 0, 0⟩] }
      ∧ opField (coll 16) 0x16 0 10 < 2 ∧ opField (coll 16) 0x30 0 32 % (1 * wordElems (opField (coll 16) 0x12 4 4)) = 0
      ∧ (at_ (grouped 0)).opReady 0 0 (grouped 0) (coll 0) ∧ (begun (grouped 0) (at_ (grouped 0))).current 0 = some stratum0
      ∧ collectiveOk stratum0 (coll 0) = false
      ∧ ((at_ (done (op0 4 []))).part 0).stream = some (done (op0 4 [])) ∧ (done (op0 4 [])).ops[0]? = some (op0 4 [])
      ∧ (done (op0 4 [])).opStates[0]? = some .started ∧ (at_ (done (op0 4 []))).fwLive = true ∧ (done (op0 4 [])).ending = none
      ∧ (at_ (done (op0 4 []))).opDone 0 (done (op0 4 [])) 0 (op0 4 []) = true ∧ opSignal (op0 4 []) = none
      ∧ (∀ j, j < (done (op0 4 [])).opStates.length → j ≠ 0 → (done (op0 4 [])).opStates[j]? = some .completed)
      ∧ (done (op0 4 [])).phases ≤ (done (op0 4 [])).opened ∧ (at_ notLast).opDone 0 notLast 0 (op0 4 []) = true
      ∧ 1 < notLast.opStates.length ∧ notLast.opStates[1]? ≠ some .completed := by
  dsimp only
  and_intros <;> decide +kernel

theorem witness_SwitchesCheckpointsAndHints :
    let sw := op0 9 [(8 * 0x10, 6, 1)]
    let switching : Stream := { stream0 sw with opStates := [.started], switching := some 0 }
    let at_ (x : Stream) := withPart fun q => { q with state := 3, stream := some x, strata := [(0, stratum0)], strmStatus := { seq := 1, state := 3 } }
    let check := op0 10 [(8 * 0x10, 40, 0x10000000)]
    let hint : Hint := { margin := false, until_ := 100 }
    (doing 9 [(8 * 0x10, 6, 1)]).opReady 0 0 (stream0 sw) sw ∧ opCode sw = 9 ∧ ((doing 9 []).stratum 0 (opField sw 0x10 0 6)).isSome = true
      ∧ ((at_ switching).part 0).stream = some switching ∧ switching.switching = some 0 ∧ switching.ops[0]? = some sw ∧ (at_ switching).fwLive = true
      ∧ switching.ending = none ∧ (doing 10 [(8 * 0x10, 40, 0x10000000)]).opReady 0 0 (stream0 check) check ∧ opCode check = 10
      ∧ run.rangeOk 0 (opField check 0x10 0 40) 64 = true ∧ (stream0 check).job = some { stratum := 0, seed := 0 }
      ∧ (doing 7 []).opReady 0 0 (stream0 (op0 7 [])) (op0 7 []) ∧ opCode (op0 7 []) = 7
      ∧ ((withPart fun q => { q with hint := some hint }).part 0).hint = some hint ∧ run.power.stalled = false
      ∧ ({ run with power := { run.power with stalled := true } } : State).power.stalled = true := by decide +kernel

/-- `run` whose window 0 admits everything of stacked memory. -/
def open0 : State := withPart fun q => { q with windows := q.windows.set 0 { limit := BitVec.allOnes 28, read := true, write := true } }

/-- A request packet of `n` bytes at 0x10000000 of stacked memory. -/
def reqPkt (type : BitVec 3) (n : Nat) : Pkt := pkt0 0 type (mkDesc [(0, 0, 40, 0x10000000), (8, 0, 10, n)]) (List.replicate (ceilDiv n 64) (0, false))

/-- `open0` with the granule there written by partition 1. -/
def openOther : State := { open0 with hbm := { run.hbm with metas := [(349520, some { owner := 1 })] } }

theorem witness_RequestsAreServedOrRefused :
    let d (p : Pkt) (s : State) := delivering s p
    let busy := { d (reqPkt 2 64) open0 with mesh := [{ src := .fabric ((d (reqPkt 2 64) open0).ejectPort (reqPkt 2 64)), part := 0, space := 0,
                                                        addr := 0x10000000, bytes := [0] }] }
    busy.denied (reqPkt 2 64) false = none ∧ busy.readWaits (.fabric (busy.ejectPort (reqPkt 2 64))) 0 0x10000000 64 = true
      ∧ (d (reqPkt 2 64) open0).readWaits (.fabric ((d (reqPkt 2 64) open0).ejectPort (reqPkt 2 64))) 0 0x10000000 64 = false
      ∧ (d (reqPkt 0 448) open0).delivers (reqPkt 0 448) 0 0 ∧ (d (reqPkt 0 448) open0).denied (reqPkt 0 448) true = none ∧ Pkt.len (reqPkt 0 448) = 448
      ∧ (d (reqPkt 0 0) open0).delivers (reqPkt 0 0) 0 0 ∧ (d (reqPkt 0 0) open0).denied (reqPkt 0 0) true = none ∧ Pkt.len (reqPkt 0 0) = 0
      ∧ (d (reqPkt 0 64) run).delivers (reqPkt 0 64) 0 0 ∧ (d (reqPkt 0 64) run).denied (reqPkt 0 64) true = some (0x0208, true)
      ∧ (d (reqPkt 1 64) open0).delivers (reqPkt 1 64) 0 1 ∧ (d (reqPkt 1 64) open0).denied (reqPkt 1 64) true = none
      ∧ (d (reqPkt 2 64) open0).delivers (reqPkt 2 64) 0 2 ∧ (d (reqPkt 2 64) open0).denied (reqPkt 2 64) false = none
      ∧ (d (reqPkt 2 64) open0).mismatchIn 0 0 0x10000000 64 = none ∧ (d (reqPkt 2 64) openOther).delivers (reqPkt 2 64) 0 2
      ∧ (d (reqPkt 2 64) openOther).denied (reqPkt 2 64) false = none ∧ (d (reqPkt 2 64) openOther).mismatchIn 0 0 0x10000000 64 = some 349520
      ∧ (d { reqPkt 0 64 with dpart := 1 } run).mayDeliver { reqPkt 0 64 with dpart := 1 } = true ∧ run.partLive (pktPart { reqPkt 0 64 with dpart := 1 }) = false := by
  decide +kernel

/-- `run` with reply slot 2 of a unit held by a request. -/
def replied (unit : Nat) (use : ReplyUse) : State := { run with reply := [(unit * 4096 + 2, { gen := 1, use := some use })] }

/-- An answer for slot 2 of a unit with a generation. -/
def answer0 (type : BitVec 3) (unit gen : Nat) : Pkt := pkt0 1 type (mkDesc [(0, 0, 32, unit + 2 * 2 ^ 16 + gen * 2 ^ 28)]) []

theorem witness_AnswersEndTheirRequests :
    let put : ReplyUse := .put 0 0 0 0
    let wr : ReplyUse := .dmaWrite 0 0 3
    let rd : ReplyUse := .dmaRead 0 0 3
    let s (unit : Nat) (use : ReplyUse) (p : Pkt) := delivering (replied unit use) p
    let ok (unit : Nat) (use : ReplyUse) (p : Pkt) : Prop := (s unit use p).answered p = some (0, BitVec.ofNat 16 unit, 2, use)
      ∧ Pkt.field p 4 0 1 = 0 ∧ p.cls = 1 ∧ (s unit use p).mayDeliver p = true
    let reading := { chan0 {} true { work0 (dma0 0) with out := [{ piece0 with reading := true }] } with reply := [(0x400 * 4096 + 2, { gen := 1, use := some rd })] }
    let bar := pkt0 3 4 0 []
    let told : Stream := { stream0 (op0 4 []) with ranks := [6, 5], rankSeqs := [(0, 5)] }
    let old := delivering (withPart fun q => { q with stream := some told }) bar
    let full : State := { delivering run bar with fab := { (delivering run bar).fab with cpRing := List.replicate 4096 bar } }
    let gone : State := { delivering run bar with host := { run.host with service := 1 } }
    let kept (n : Nat) := delivering (withPart fun q => { q with kept := List.replicate n ⟨6, 0, 0, 0, 0, 0⟩ }) bar
    ok 0 put (answer0 0 0 1) ∧ ok 0x400 wr (answer0 0 0x400 1) ∧ ok 0x400 rd (answer0 1 0x400 1)
      ∧ (reading.chan 0 0).out.find? (fun x => x.seq == 3) = some { piece0 with reading := true } ∧ ok 0 put (answer0 2 0 1) ∧ ((replied 0 put).core 0 0).ctx.isSome = true
      ∧ ok 0x400 rd (answer0 2 0x400 1) ∧ ok 0x400 wr (answer0 2 0x400 1)
      ∧ (∀ t : BitVec 3, t.toNat < 3 → (s 0 put (answer0 t 0 2)).answered (answer0 t 0 2) = none ∧ (s 0 put (answer0 t 0 2)).mayDeliver (answer0 t 0 2) = true
        ∧ Pkt.field (answer0 t 0 2) 4 0 1 = 0)
      ∧ (reading.dma[0].status.stopped = false)
      ∧ ((replied 0 (.reserved 2)).replySlot 0 0 (2#12).toNat).use = some (.reserved 2)
      ∧ (kept 0).fwLive = true ∧ (kept 0).fab.cpRing = [] ∧ (old.delivers bar 3 4) ∧ (old.part 0).stream = some told ∧ told.stale (KeptBarrier.ofPkt bar) = true
      ∧ old.fab.cpRing = [] ∧ ((kept 0).part (pktPart bar)).stream = none ∧ full.delivers bar 3 4 ∧ 4096 ≤ full.fab.cpRing.length
      ∧ gone.delivers bar 3 4 ∧ gone.fwLive = false ∧ gone.fab.cpRing.length < 4096
      ∧ ((replied 0 put).replySlot 0 0 (2#12).toNat).use = some put ∧ ((replied 0x400 rd).replySlot 0 0x400 (2#12).toNat).use = some rd
      ∧ (kept 255).delivers bar 3 4 ∧ ((kept 255).part (pktPart bar)).kept.length < 256 ∧ (kept 256).delivers bar 3 4
      ∧ 256 ≤ ((kept 256).part (pktPart bar)).kept.length := by
  dsimp only
  and_intros <;> decide +kernel

/-- `run` with a port changed. -/
def withLink (n : Fin 20) (f : Link → Link) : State := run.updLink n f

/-- A port that is UP and carries. -/
def linkUp (x : Link) : Link :=
  { x with status := { x.status with state := 3, version := 3 }, released := true, accepted := true, ctrl := { x.ctrl with enable := true } }

/-- `run` whose port 0 leads to device 6, with room for a packet of each class. -/
def routed : State :=
  { withLink 0 linkUp with
    fab := { (withLink 0 linkUp).fab with
      routes := [(6, 0)]
      credits := (List.range 4).map fun c => (c, { known := true, size := 4 }) } }

def cellOf (n : Nat) (p : Pkt) : SentCell := { lseq := BitVec.ofNat 12 n, cell := { header := 0, payload := 0 }, pkt := p, last := true }

theorem witness_FabricMovesPackets :
    let here := pkt0 0 0 0 []
    let there := { pkt0 0 0 0 [] with dest := 6 }
    let nowhere := { pkt0 0 0 0 [] with dest := 7 }
    let s (p : Pkt) : State := { routed with fab := { routed.fab with inject := [p] } }
    let mw := { pkt0 0 3 (mkDesc [(16, 0, 8, 32)]) [(0, false)] with dest := 6 }
    let mp : State := { routed with fab := { routed.fab with pools := [(poolKey 0 0 0, [(mw, false)])] } }
    let away := { pkt0 0 3 (mkDesc [(16, 0, 8, 1)]) [(0, false)] with dest := 6 }
    let ap : State := { routed with fab := { routed.fab with pools := [(poolKey 0 0 0, [(away, false)])] } }
    let hop := pkt0 3 0 0 []
    let hc := withLink 0 fun x => { linkUp x with arrived := [hop] }
    let report := pkt0 3 1 (mkDesc [(0, 0, 5, 0), (2, 0, 12, 7), (2, 15, 1, 1)]) []
    let hand := delivering (withLink 0 fun x => { x with hand := .waiting 1, buffer := [cellOf 6 here, cellOf 7 here, cellOf 8 here] }) report
    let ending := withLink 0 fun x => { x with hand := .handing 1 [] }
    (∀ p ∈ [here, there, nowhere], ((s p).packetsAt .inject)[0]? = some (p, false) ∧ (s p).firstAt .inject 0 p = true ∧ p = { p with mark := p.mark || false }
        ∧ ¬(p.cls = 0 ∧ p.type = 3))
      ∧ (s here).moveOf here = .local ∧ (s nowhere).moveOf nowhere = .lost ∧ (s there).moveOf there = .go 0 there
      ∧ (s there).mayMove there (PktPlace.source .inject) (0, pktPool there) = true
      ∧ ((s mw).packetsAt .inject)[0]? = some (mw, false) ∧ (s mw).firstAt .inject 0 mw = true ∧ mw.cls = 0 ∧ mw.type = 3
      ∧ (s there).mayShare 0 (toFin 4 there.cls.toNat) = true
      ∧ (mp.pool (poolKey 0 (pktPool mw) 0)).findIdx? (fun e => e.1 == mw) = some 0 ∧ (mp.pool (poolKey 0 (pktPool mw) 0))[0]? = some (mw, false)
      ∧ mp.firstAt (.pool 0 (toFin 3 (pktPool mw)) 0) 0 mw = true ∧ (Pkt.field away 16 0 8).testBit (ap.mwCoord away) = false
      ∧ (ap.pool (poolKey 0 (pktPool away) 0)).findIdx? (fun e => e.1 == away) = some 0 ∧ (ap.pool (poolKey 0 (pktPool away) 0))[0]? = some (away, false)
      ∧ ap.firstAt (.pool 0 (toFin 3 (pktPool away)) 0) 0 away = true
      ∧ (Pkt.field mw 16 0 8).testBit (mp.mwCoord mw) = true
      ∧ hop ∈ (hc.link 0).arrived ∧ (hc.link 0).usable = true ∧ (hc.link 0).room 1 = true
      ∧ Pkt.field report 0 0 5 = (0 : Fin 20).val ∧ report.cls = 3 ∧ report.type = 1 ∧ hand.mayDeliver report = true ∧ (hand.link 0).hand = .waiting 1
      ∧ Pkt.field report 2 15 1 = 1 ∧ (hand.link 0).buffer = [cellOf 6 here] ++ cellOf 7 here :: [cellOf 8 here]
      ∧ (cellOf 7 here).lseq = BitVec.ofNat 12 (Pkt.field report 2 0 12) ∧ (∀ b ∈ [cellOf 6 here], b.lseq ≠ (cellOf 7 here).lseq)
      ∧ (ending.link 0).hand = .handing 1 [] := by decide +kernel

theorem witness_ProbesLimitersAndHistograms :
    let ask := pkt0 3 5 (mkDesc [(0, 0, 64, 100)]) []
    let echo := pkt0 3 5 (mkDesc [(0, 0, 64, 100), (24, 0, 1, 1)]) []
    let sent (s : State) : State := { s with fab := { s.fab with probeSent := some 100, probeCtrl := { device := 6 } } }
    ask.cls = 3 ∧ ask.type = 5 ∧ (delivering run ask).mayDeliver ask = true ∧ Pkt.field ask 24 0 1 = 0
      ∧ (sent (delivering run echo)).mayDeliver echo = true ∧ Pkt.field echo 24 0 1 = 1
      ∧ (sent run).fab.probeSent = some (BitVec.ofNat 64 (Pkt.field echo 0 0 64)) ∧ echo.src = (sent run).fab.probeCtrl.device ∧ run.mgmt.probe = none
      ∧ (sent run).fab.probeSent.isSome = true ∧ ({ run with fab := { run.fab with limiters := [{ dest := 6, rate := 64 }] } } : State).fab.limiters[0]? = some { dest := 6, rate := 64 } := by
  decide +kernel

/-- The first cell of a packet without data, and of one with a data cell. -/
def cell0 (n : Nat) : Cell := { header := cellHeader (reqPkt 2 64) true n false, payload := (reqPkt 2 64).desc }

/-- A cell as it is sent and arrives without an error. -/
def rxOf (w : Wire) (ack : Option (BitVec 12)) : LinkRx := { bits := w.bits ack }

theorem witness_LinksHearReplayAndIdentify :
    let here := pkt0 0 0 0 []
    let buf := [cellOf 6 here, cellOf 7 here, cellOf 8 here]
    let up := withLink 0 fun x => { linkUp x with buffer := buf, toAck := 1 }
    let wait := withLink 0 fun x => { linkUp x with status := { x.status with state := 1 } }
    let id : Ident := ⟨1, 6, 1, 1, 2, 3, true, true, 7, 5, 0, 9, 0, 0⟩
    let known := withLink 0 fun x => { linkUp x with ident := some id }
    let silent : State := { wait with host := { run.host with service := 1 } }
    let bad : Cell := { cell0 0 with header := cellHeader { reqPkt 2 64 with type := 7 } true 0 false }
    let idle := rxOf (.link .idle) none
    let rx (n : BitVec 12) (c : Cell) := rxOf (.cell n c) none
    let broken : LinkRx := { bits := (Wire.cell 0 (cell0 0)).bits none ^^^ 1 }
    let count (c : Cell) : Nat := bitsAt c.header.toNat 21 4
    (up.link 0).hears = true ∧ broken.crcOk = false ∧ broken.isLink = false ∧ ({ bits := 0, fec := [[0]] } : LinkRx).fec = [[0]]
      ∧ idle.crcOk = true ∧ idle.ack = none ∧ idle.linkCell = some .idle
      ∧ (LinkCell.ofBody 7).isNone = true ∧ (rx 0 (cell0 0)).linkCell = none
      ∧ (up.link 0).buffer = [cellOf 6 here] ++ cellOf 7 here :: [cellOf 8 here] ∧ (rxOf (.link .idle) (some 7)).ack = some (cellOf 7 here).lseq
      ∧ (∀ b ∈ [cellOf 6 here], b.lseq ≠ (cellOf 7 here).lseq) ∧ (cellOf 7 here).lseq = (8#12) - 1 ∧ [cellOf 8 here] ≠ []
      ∧ (rxOf (.link (.nak 8)) none).linkCell = some (.nak 8)
      ∧ (up.link 0).status.state = 3 ∧ (up.link 0).buffer ≠ [] ∧ 0 < (up.link 0).toAck
      ∧ (rx 0 (cell0 0)).crcOk = true ∧ (rx 0 (cell0 0)).isLink = false ∧ (rx 0 (cell0 0)).ack = none ∧ (rx 0 (cell0 0)).lseq = (up.link 0).expectLseq
      ∧ (up.link 0).toAck + 1 < 64 ∧ (up.link 0).partialRx = [] ∧ (rx 0 (cell0 0)).cell = cell0 0 ∧ (rx 0 bad).cell = bad
      ∧ (cell0 0).header.getLsbD 20 = true ∧ bad.header.getLsbD 20 = true ∧ (cell0 1).header.getLsbD 20 = true
      ∧ count (cell0 0) = 0 ∧ count bad = 0 ∧ (Pkt.ofCells (hasClosure 0) [cell0 0]).isSome = true ∧ Pkt.ofCells (hasClosure 0) [bad] = none
      ∧ count (cell0 1) = 1 ∧ [cell0 1].length < 1 + 1 ∧ (rx 5 (cell0 0)).lseq ≠ (up.link 0).expectLseq
      ∧ (rxOf (.link (.ident id)) none).linkCell = some (.ident id)
      ∧ (known.link 0).hears = true ∧ (known.link 0).ident = some id ∧ (up.link 0).ident ≠ some id ∧ (wait.link 0).hears = true
      ∧ (wait.link 0).ident ≠ some id ∧ (wait.link 0).status.state ≠ 3 ∧ wait.fwLive = true ∧ silent.fwLive = false
      ∧ (silent.link 0).hears = true := by
  dsimp only
  and_intros <;> decide +kernel

theorem witness_LinksTrainSpareLanesAndFail :
    let s (f : Link → Link) := withLink 0 f
    let st (n : BitVec 3) (x : Link) : Link := { linkUp x with status := { x.status with state := n } }
    let train := s fun x => { st 1 x with accepted := false }
    let saved := s fun x => { st 1 x with accepted := false, status := { x.status with state := 1, savedStart := true } }
    let spare (b : Bool) := s fun x => { linkUp x with status := { x.status with state := 3, rxSpare := b, txSpare := b } }
    let rxSwap (c : Option (BitVec 32)) := s fun x => { linkUp x with rxSwap := some (4, c) }
    let limit := s fun x => { linkUp x with replaysNow := 4095 }
    run.fwLive = true ∧ run.clocks.clk.refRack = true ∧ ((s (st 4)).link 0).ctrl.enable = true ∧ ((s (st 4)).link 0).status.state = 4
      ∧ train.fwLive = true ∧ train.clocks.clk.refRack = true ∧ saved.fwLive = true ∧ saved.clocks.clk.refRack = true
      ∧ popCount (failingLanes 1000000 [10, 10, 10, 10, 11]) = 1 ∧ popCount (failingLanes 1000000 [11, 10, 10, 10, 11]) = 2
      ∧ popCount (failingLanes 0 []) = 0 ∧ (train.link 0).status.rxRetired = 7
      ∧ (rxOf (.link (.laneSwap 4)) none).linkCell = some (.laneSwap 4) ∧ (rxOf (.link (.swapAck 4 9)) none).linkCell = some (.swapAck 4 9)
      ∧ (rxOf (.link (.down 2)) none).linkCell = some (.down 2) ∧ (rxOf (.link (.down 2)) none).crcOk = true
      ∧ (train.link 0).status.state = 1 ∧ (train.link 0).accepted = false ∧ (train.link 0).status.savedStart = false ∧ (train.link 0).hand = .none
      ∧ (saved.link 0).status.state = 1 ∧ (saved.link 0).status.savedStart = true ∧ (saved.link 0).accepted = false
      ∧ ((spare true).link 0).status.state = 3 ∧ ((spare true).link 0).lanes[4].rxUse = 0 ∧ ((spare true).link 0).rxSwap = none
      ∧ ((spare true).link 0).status.rxSpare = true ∧ ((spare false).link 0).status.rxSpare = false ∧ ((spare true).link 0).hears = true
      ∧ ((spare true).link 0).status.txSpare = true ∧ ((spare true).link 0).lanes[4].txUse = 0 ∧ ((spare true).link 0).txSwap = none
      ∧ ((rxSwap none).link 0).hears = true ∧ ((rxSwap none).link 0).rxSwap = some (4, none) ∧ ((rxSwap (some 9)).link 0).rxSwap = some (4, some 9)
      ∧ ((s fun x => { linkUp x with txSwap := some (4, 9) }).link 0).txSwap = some (4, 9)
      ∧ (limit.link 0).hears = true ∧ max 1 limit.fab.linkConfig.replayLimit.toNat ≤ (limit.link 0).replaysNow := by decide +kernel

/-- `run` with clocks changed. -/
def withClocks (f : Clocks → Clocks) : State := { run with clocks := f run.clocks }

/-- A package whose one partition is idle. -/
def idle : State := { run with cores := [] }

theorem witness_ClocksAndPowerStates :
    let lost : State := { withLink 0 (fun x => { linkUp x with status := { x.status with state := 4 } }) with
      clocks := { run.clocks with clk := { run.clocks.clk with refRack := false } } }
    let ps3 := withClocks fun c => { c with pkg := .ps3, psConfig := { c.psConfig with ps4IdleS := 1 } }
    let resting : State := { idle with clocks := { run.clocks with ps := { partState := 2 }, psConfig := { run.clocks.psConfig with ps3En := true } }
                                       parts := run.parts.set 0 { part0 with state := 4 } }
    let work (n : BitVec 8) := withClocks fun c => { c with ps := { partState := n } }
    let armed := withClocks fun c => { c with load := 0, ctrl := { c.ctrl with armLoad := true } }
    let late : State := { run with time := 1 }
    run.clocks.clk.refRack = true ∧ (withLink 0 linkUp |>.link 0).status.state = 3 ∧ (∀ n, (run.link n).status.state ≠ 3)
      ∧ lost.clocks.clk.refRack = false ∧ lost.fwLive = true ∧ lost.boot.status.ready = true ∧ lost.clocks.pkg = .run
      ∧ (lost.link 0).ctrl.enable = true ∧ (lost.link 0).status.state = 4
      ∧ run.fwLive = true ∧ run.clocks.clk.cpLock = true ∧ (withClocks fun c => { c with clk := { c.clk with pllRef := 1 } }).clocks.clk.refPresent = false
      ∧ (armed.clocks.ctrl.armLoad && !armed.clocks.rt.locked) = true ∧ (late.clocks.ctrl.armLoad && !late.clocks.rt.locked) = false
      ∧ (0 : Int) < (late.time.toNat : Int) - (BitVec.ofNat 64 ((late.time.toNat + max 1 late.clocks.ctrl.periodMs.toNat * 1000000 / 2)
          / (max 1 late.clocks.ctrl.periodMs.toNat * 1000000) * (max 1 late.clocks.ctrl.periodMs.toNat * 1000000)) : Word).toNat
      ∧ idle.mayRest 0 = true ∧ idle.psOf 0 = 0 ∧ idle.clocks.psConfig.ps1IdleUs ≠ 0 ∧ idle.clocks.psConfig.ps2IdleMs ≠ 0
      ∧ resting.allResting = true ∧ resting.clocks.psConfig.ps3En = true ∧ resting.clocks.psConfig.ps3IdleMs ≠ 0
      ∧ ps3.clocks.pkg = .ps3 ∧ ps3.clocks.psConfig.ps4IdleS ≠ 0 ∧ (work 1).clocks.pkg = .run ∧ (work 1).fwLive = true ∧ (work 1).psOf 0 = 1
      ∧ (work 2).psOf 0 = 2 ∧ (work 2).rcv.retentionLost.getLsbD 0 = false ∧ (∀ q, WakeSrc.deadline ≠ .work q) ∧ ps3.wakeCode .deadline = some 6
      ∧ (withClocks fun c => { c with pkg := .ps4 }).clocks.pkg = .ps4 := by decide +kernel

/-- A package in a stage of a start. -/
def stage (n : Nat) (f : Boot → Boot) : State :=
  { run with boot := f { starting := true, status := { stage := BitVec.ofNat 4 n, outcome := 5 } } }

theorem witness_StartsGoThroughTheirStages :
    let rails (core good : Bool) (s : State) : State := { s with lands := { s.lands with coreEn := core, pwrGood := good } }
    let tripped : State := { run with power := { run.power with status := { run.power.status with tripped := true } } }
    let due : State := { run with boot := { run.boot with startDue := true } }
    let restart : State := { run with rcv := { run.rcv with restartDue := true } }
    let req (f : Boot → Boot) : State := { stage 1 f with lands := { run.lands with flashReqN := false } }
    let other : State := { req id with flash := { State.reset.flash with slots := #v[some firstImage, some firstImage] } }
    let waking := rails true false (withClocks fun c => { c with pkg := .waking false })
    let late : State := { stage 3 (fun b => { b with s3Since := some 0 }) with time := 10000000000 }
    State.reset.lands.bedrockPg = false ∧ run.lands.bedrockPg = true ∧ run.lands.railEn = true
      ∧ (rails false false (stage 0 id)).lands.pwrGood = false ∧ (rails false false (stage 0 id)).lands.coreEn = false
      ∧ (rails false false (stage 0 id)).boot.starting = true ∧ (rails true false (stage 0 id)).lands.coreEn = true
      ∧ (rails true false (stage 0 id)).clocks.pkg = .run ∧ (stage 0 id).inStage 0 = true ∧ run.lands.pkgResetN = true
      ∧ run.power.status.tripped = false ∧ run.inStage 0 = false ∧ run.boot.startDue = false ∧ waking.clocks.pkg = .waking false
      ∧ waking.lands.pwrGood = false ∧ run.lands.pwrGood = true
      ∧ (run.rcv.railLosses.filter (fun x => decide ((run.time - x).toNat < 600000000000))).length < 2
      ∧ restart.rcv.restartDue = true ∧ run.rcv.restartDue = false ∧ due.boot.startDue = true ∧ run.lands.coreEn = true
      ∧ tripped.power.status.tripped = true ∧ (req id).inStage 1 = true ∧ (req id).lands.flashReqN = false ∧ (req id).boot.granted = false
      ∧ (req id).bootRec.trial = false ∧ (req id).bootRec.active = false ∧ (1#2).getLsbD (slotIdx false).val = true ∧ (req id).slotFits false = true
      ∧ (2#2).getLsbD (slotIdx false).val = false ∧ (2#2).getLsbD (slotIdx true).val = true ∧ other.slotFits true = true
      ∧ (0#2).getLsbD (slotIdx false).val = false ∧ (0#2).getLsbD (slotIdx true).val = false
      ∧ (req fun b => { b with booted := true }).boot.booted = true ∧ (stage 2 id).inStage 2 = true ∧ (stage 3 id).inStage 3 = true
      ∧ (stage 3 id).boot.s3Since = none ∧ late.inStage 3 = true ∧ late.boot.s3Since.isSome = true ∧ late.lasted late.boot.s3Since 10000000000 = true
      ∧ (stage 4 id).inStage 4 = true ∧ (stage 4 id).boot.needFill &&& ~~~(0#12) = 0 ∧ (stage 5 id).inStage 5 = true ∧ (stage 6 id).inStage 6 = true
      ∧ (stage 6 id).portsTried = true ∧ (stage 7 id).inStage 7 = true ∧ (stage 8 id).inStage 8 = true
      ∧ (∀ p, ((stage 8 id).part p).genWait = false) ∧ (stage 9 id).inStage 9 = true := by decide +kernel

/-- `run` with the power controller changed. -/
def withPower (f : Power → Power) : State := { run with power := f run.power }

theorem witness_PowerControlLoopsStepsAndTrims :
    let step (n target : BitVec 4) (fault : Bool) := withPower fun w => { w with status := { w.status with step := n, target := target, vrFault := fault } }
    let moving (r : Bool) := withPower fun w => { w with move := some { up := false, goal := 0, repeated := r } }
    let trim (f : Power → Power) := { withPower f with parts := run.parts.set 0 {} }
    let excess := withPower fun w => { w with status := { w.status with lPower := 1, step := 0, capUnreachable := false }, act := { shared := 10 ^ 13 } }
    run.clocks.clk.cpLock = true ∧ run.host.service = 0 ∧ run.clocks.pkg = .run ∧ run.power.settings = [] ∧ run.pwrLive = true
      ∧ (withPower fun w => { w with rails := some 4 }).power.rails = some 4 ∧ run.power.estSum = 0 ∧ 0 < (withPower fun w => { w with estSum := 1 }).power.estSum
      ∧ excess.pwrLive = true ∧ excess.power.status.lPower = 1 ∧ excess.power.status.step = 0 ∧ excess.power.status.capUnreachable = false
      ∧ ¬(excess.power.estW ≤ excess.power.pEffW) ∧ excess.power.capReport = none
      ∧ (step 1 0 false).power.move = none ∧ (step 1 0 false).power.trim = none ∧ (step 1 0 false).power.status.target < (step 1 0 false).power.status.step
      ∧ (step 1 0 true).power.status.vrFault = true ∧ (step 0 1 false).power.status.step < (step 0 1 false).power.status.target
      ∧ (step 0 1 false).power.status.step < (step 0 1 false).power.config.maxStep ∧ (step 0 1 false).pwrLive = true
      ∧ (moving true).power.move = some { up := false, goal := 0, repeated := true } ∧ (moving false).power.move = some { up := false, goal := 0, repeated := false }
      ∧ run.power.stalled = false ∧ run.boot.maps[0].retired = false
      ∧ (trim fun w => { w with psSeconds := 600 }).idleWindow = true ∧ (trim fun w => { w with psSeconds := 600 }).pwrLive = true
      ∧ (trim fun w => { w with psSeconds := 600 }).power.validated = false ∧ 600 ≤ (trim fun w => { w with psSeconds := 600 }).power.psSeconds
      ∧ (trim fun w => { w with validated := true, guard := { w.guard with hoursSinceTrim := 24 } }).idleWindow = true
      ∧ 24 ≤ (trim fun w => { w with validated := true, guard := { w.guard with hoursSinceTrim := 24 } }).power.guard.hoursSinceTrim
      ∧ run.power.status.hintHeld = false ∧ (withPower fun w => { w with trim := some true }).power.trim = some true
      ∧ (List.replicate 16 600).length = 16 ∧ (List.replicate 16 600)[15]? = some 600
      ∧ 96 ≤ (withPower fun w => { w with guard := { w.guard with hoursSinceTrim := 96 } }).power.guard.hoursSinceTrim := by decide +kernel

theorem droopy_of_replicate (s : State) (h : s.power.droops = List.replicate 10001 (s.time, 0)) : s.droopy = true := by
  simp only [State.droopy, h, List.any_eq_true, List.mem_finRange, true_and, decide_eq_true_eq]
  refine ⟨0, ?_⟩
  rw [List.filter_replicate_of_pos (by simp), List.filter_replicate_of_pos (by simp), List.length_replicate]
  decide

/-- A periodic trim after more than 10,000 droops of a cluster. -/
theorem witness_PowerControlLoopsStepsAndTrims_droopy :
    (withPower fun w => { w with trim := some false, droops := List.replicate 10001 (0, 0) }).droopy = true :=
  droopy_of_replicate _ rfl

theorem witness_TemperaturesEmergenciesAndTrips :
    let sens (a b : Int) := withPower fun w => { w with sensors := [(0, some a), (1, some b), (2, some 300), (3, some 302), (4, some 300)] }
    let hot (t : BitVec 10) := withMc { status := { state := 2 }, temp := { temp := t, valid := true } }
    let track (x : CycleTrack) := { sens 300 300 with power := { (sens 300 300).power with track := run.power.track.set 0 x } }
    let cool (p : Bool) := withPower fun w => { w with coolPin := p, status := { w.status with cool := !p } }
    let all (s : State) := ((s.workClusters.filter fun c => c.val / 8 == 0).map s.controlReading).max?
    run.clocks.pkg = .run ∧ run.boot.maps[0].retired = false ∧ (withPower fun w => { w with stalled := true }).power.stalled = true
      ∧ (sens 300 333).power.credible 0 0 = some 300 ∧ (sens 300 333).power.credible 0 1 = some 333 ∧ 32 < ((300 : Int) - 333).natAbs
      ∧ median2 (((List.range 8).filter fun k => k / 2 != 0).filterMap ((sens 300 333).power.credible 0)) = some 600
      ∧ (2 * (300 : Int) - 600).natAbs < (2 * (333 : Int) - 600).natAbs ∧ (sens 333 300).power.credible 0 0 = some 333
      ∧ run.pwrLive = true ∧ run.power.clu[0].thermalLevel.toNat ≤ 64 ∧ (hot 381).hbm.mcs[0].status.state = 2 ∧ (hot 381).hbm.mcs[0].temp.valid = true
      ∧ run.power.status.cool = false ∧ (hot 420).stackHot 0 = true ∧ run.power.hotStacks.getLsbD 0 = false
      ∧ run.power.hourSeconds < 3599 ∧ 3599 ≤ (withPower fun w => { w with hourSeconds := 3599 }).power.hourSeconds
      ∧ run.power.status.modelReady = false ∧ run.power.psSeconds + 1 < 600
      ∧ all (sens 300 300) = some 322 ∧ (sens 300 300).power.track[0].turn = none ∧ (sens 300 300).pwrLive = true
      ∧ (track { turn := some 260, ext := 342, rising := some true, odd := 1 }).power.track[0].turn = some 260 ∧ (322 : Int) ≤ 342 - 20
      ∧ 80 ≤ ((342 : Int) - 260).natAbs ∧ (1#5).getLsbD (min 4 ((((342 : Int) - 260).natAbs - 80) / 40)) = true
      ∧ all (track { turn := some 260, ext := 342, rising := some true, odd := 1 }) = some 322
      ∧ run.pinsHeld = false ∧ State.reset.power.brakePin = false ∧ State.reset.power.coolPin = false ∧ State.reset.pinsHeld = true
      ∧ run.power.brakePin = false ∧ run.power.brakeReport = none ∧ (withPower fun w => { w with brakePin := true }).power.brakePin = true
      ∧ run.power.coolPin = false ∧ (cool true).power.coolPin = true ∧ (cool false).power.status.cool = true ∧ (cool false).power.hotStacks = 0
      ∧ run.power.status.tripped = false ∧ twoVote 3 = true ∧ twoVote 4 = false := by decide +kernel

theorem witness_WatchdogsResetsAndDumps :
    let x : Stream := stream0 (op0 4 [])
    let req (level : BitVec 3) (core : BitVec 10) : ResetReq := { level := level, trigger := 0x0704, core := core, draining := true }
    let resetting (level : BitVec 3) := withPart fun q => { q with state := 1, reset := some (req level 0) }
    let hang : State := { dumping with
      cores := [(0, { core0 with mms := [{ desc := 0, pc := 0, order := 0 }] })], clus := run.clus.set 0 { waves := 1, quiet := false }
      rcv := { dumping.rcv with config := { dumping.rcv.config with autoLevel := 3 }, silent := 1 } }
    let aborting : State := { streaming { x with ending := some 0x0703 } with cores := [(0, { core0 with aborting := true })] }
    let due (slots : BitVec 4) : State := { dumping with
      parts := run.parts.set 0 { part0 with reset := some { level := 3, trigger := 0x0705 }, rcv := { part0.rcv with dumpSlots := slots } } }
    let d : Dump := { slot := 3, level := 3, trigger := 0x0705, core := 0x3FF, start := 0, seq := 0 }
    let running := withPart fun q => { q with dump := some d }
    run.fwLive = true ∧ run.partLive 0 = true ∧ ((streaming x).part 0).stream = some x ∧ x.ending = none ∧ (0 : Fin 1024) ∈ (streaming x).partCores 0
      ∧ ((streaming x).core 0 0).ctx.isSome = true ∧ (streaming x).partLive 0 = true
      ∧ hang.fwLive = true ∧ hang.partLive 0 = true ∧ (hang.part 0).reset = none ∧ (hang.part 0).stream = none ∧ (hang.core 0 0).mms ≠ []
      ∧ (hang.core 0 0).lost = false ∧ hang.coreEnabled 0 0 = true ∧ 2 ≤ hang.autoLevel ∧ hang.rcv.config.dumpEn = true
      ∧ (run.part 0).clusters.Nodup ∧ (run.part 0).clusters[0]? = some 0 ∧ hang.rcv.silent.getLsbD 0 = true ∧ 0 ∈ (hang.part 0).clusters
      ∧ (hang.part 0).state ≠ 0 ∧ 3 ≤ hang.autoLevel ∧ hang.boot.status.ready = true
      ∧ ((resetting 3).part 0).reset = some (req 3 0) ∧ (req 3 0).draining = true ∧ ((resetting 2).part 0).reset = some (req 2 0)
      ∧ (req 2 0).core.toNat = (0 : Fin 1024).val ∧ aborting.partLive 0 = true ∧ (aborting.core 0 0).aborting = true
      ∧ (aborting.part 0).stream = some { x with ending := some 0x0703 } ∧ (aborting.part 0).reset = none
      ∧ ((due 7).part 0).dump = none ∧ (due 7).dumpCause 0 = some (3, 0x0705, 0x3FF) ∧ (due 7).rcv.config.dumpEn = true
      ∧ ((due 7).part 0).rcv.freeSlot = some 3 ∧ ((due 15).part 0).rcv.freeSlot = none ∧ (due 15).dumpCause 0 = some (3, 0x0705, 0x3FF)
      ∧ (running.part 0).dump = some d ∧ (req 3 0).both = false ∧ (resetting 3).drained 0 = true ∧ ((resetting 3).part 0).genWait = false
      ∧ ((resetting 3).part 0).dumpGenWait = false
      ∧ (resetting 3).host.layoutMove = none ∧ (resetting 3).mgmt.change = none
      ∧ nextGen ((resetting 3).part 0).gen.gen ((resetting 3).part 0).gen.live = some 1 ∧ run.lands.bedrockPg = true := by
  dsimp only
  and_intros <;> decide +kernel

theorem witness_CommandProcessorsSwitchTestAndHandBack :
    let gap : State := { run with rcv := { run.rcv with gapAt := some 5 } }
    let a : Activation := { slot := true, mb := none, msg := none, revert := none, start := 0 }
    let act : State := { run with mgmt := { run.mgmt with activation := some a }, host := { run.host with service := 2 } }
    let sick : State := { run with rcv := { cpbFailed := true } }
    let onB (n : BitVec 3) : State := { run with rcv := { run.rcv with cp := { run.rcv.cp with active := true, cpaState := n } } }
    run.cpOn = true ∧ run.rcv.gapAt = none ∧ run.maySwitch = true ∧ run.mgmt.activation = none ∧ gap.cpOn = true ∧ gap.rcv.gapAt = some 5
      ∧ sick.cpOn = true ∧ sick.maySwitch = false ∧ sick.rcv.cp.active = false ∧ act.rcv.gapAt = none ∧ act.mgmt.activation = some a
      ∧ act.host.service = 2 ∧ run.fwLive = true ∧ run.rcv.cp.active = false ∧ (onB 1).cpOn = true ∧ (onB 1).fwLive = true
      ∧ (onB 1).rcv.cp.active = true ∧ (onB 1).rcv.cp.cpaState = 1 ∧ (onB 4).rcv.cp.cpaState = 4 ∧ (∀ p, ((onB 4).part p).reset = none)
      ∧ (onB 4).host.layoutMove = none ∧ (onB 4).rcv.chip = none := by decide +kernel

/-- `run` with the management port up and a controller with every role in key slot 1. -/
def managed : State :=
  { run with mgmt := { run.mgmt with status := { run.mgmt.status with ethUp := true, rackKey := true } },
             flash := { run.flash with keys := run.flash.keys.set 0 (some { roles := 7, key := 0 }) } }

/-- A signed message of key slot 1 over Ethernet, an unsigned one over I3C, one of the owner. -/
def hdr1 : MgmtHdr := { i3c := false, formOk := true, key := 1, counter := 1, destTag := 0, tag := 0, sigOk := true }
def hdr7 : MgmtHdr := { hdr1 with i3c := true, key := 7 }
def hdr0 : MgmtHdr := { hdr1 with key := 0 }

theorem witness_ManagementMessagesAreCheckedAndSetPower :
    let need : Need := { roles := roleRack }
    let tray : Need := { signed := false, tray := true }
    let life (n : BitVec 3) : State := { managed with fuses := { managed.fuses with lifecycle := n } }
    let missed (n : BitVec 4) (o : Bool) : State :=
      { managed with mgmt := { managed.mgmt with status := { managed.mgmt.status with hbMissed := n, orphan := o } } }
    managed.hears hdr1 = true ∧ ({ hdr1 with formOk := false } : MgmtHdr).formOk = false ∧ ({ hdr1 with destTag := 1 } : MgmtHdr).destTag ≠ managed.fuses.serialTag
      ∧ (life 4).hears hdr1 = true ∧ lifeOk (life 4).fuses.lifecycle 1 hdr1.key = false ∧ lifeOk managed.fuses.lifecycle 1 hdr1.key = true
      ∧ managed.keyOk { hdr1 with counter := 0 } 1 need = false ∧ managed.keyOk hdr1 1 need = true ∧ ({ hdr1 with bodyOk := false } : MgmtHdr).bodyOk = false
      ∧ managed.admits hdr1 1 need ∧ managed.mgmt.status.orphan = false ∧ (missed 10 true).admits hdr1 1 need ∧ (missed 10 true).mgmt.status.orphan = true
      ∧ managed.lands.bedrockPg = true ∧ managed.fuses.lifecycle = 2 ∧ managed.mgmt.status.rackKey = true
      ∧ satInc (missed 8 false).mgmt.status.hbMissed ≠ 10 ∧ satInc (missed 9 false).mgmt.status.hbMissed = 10 ∧ (missed 9 false).mgmt.status.orphan = false
      ∧ managed.admits hdr1 2 { roles := 7 } ∧ managed.admits hdr7 2 { roles := 7 } ∧ managed.clocks.pkg = .run ∧ managed.fab.snapshotAt = none
      ∧ managed.admits hdr1 0x11 need ∧ managed.power.stalled = false ∧ managed.preS3 = false
      ∧ ({ managed with power := { managed.power with stalled := true } } : State).power.stalled = true
      ∧ managed.admits hdr7 0x12 tray ∧ managed.admits hdr7 0x13 tray ∧ managed.admits hdr7 0x14 tray ∧ (List.replicate 8 (0#16)).length = 8
      ∧ managed.admits hdr1 0x15 need ∧ managed.admits hdr1 0x16 need := by
  dsimp only
  and_intros <;> decide +kernel

theorem witness_ManagementMessagesSetTheFabricAndTheChip :
    let rack : Need := { roles := roleRack }
    let fab : Need := { roles := roleFabric }
    let busy : State := { managed with parts := (streaming (stream0 0)).parts }
    let ps3 : State := { managed with clocks := { managed.clocks with pkg := .ps3 } }
    let down (b : Bool) := managed.updLink 18 fun x => { x with ctrl := { x.ctrl with enable := b } }
    let gap : State := { managed with host := { managed.host with service := 1 } }
    managed.fwFree = true ∧ managed.admits hdr1 0x10 { roles := roleRack, tray := true } ∧ managed.device = some 5 ∧ managed.device ≠ some 6
      ∧ gap.fwFree = false ∧ gap.admits hdr1 0x10 { roles := roleRack, tray := true } ∧ gap.admits hdr1 0x17 rack ∧ gap.admits hdr1 0x23 fab
      ∧ gap.partExists 0 = true ∧ managed.clocks.clk.refRack = true
      ∧ busy.fwFree = true ∧ busy.admits hdr1 0x10 { roles := roleRack, tray := true } ∧ busy.device ≠ some 6 ∧ busy.anyStream = true
      ∧ managed.anyStream = false ∧ managed.admits hdr1 0x17 rack ∧ managed.partExists 0 = true
      ∧ (∀ mb ∈ chipMailboxes, (managed.mailbox mb).status.state = 0) ∧ managed.admits hdr1 0x18 { roles := roleRack ||| roleFabric }
      ∧ ps3.admits hdr1 0x18 rack ∧ ps3.clocks.pkg = .ps3 ∧ managed.admits hdr1 0x19 rack ∧ managed.rcv.chip = none
      ∧ managed.admits hdr1 0x21 fab ∧ managed.fab.epoch.settling = false ∧ managed.admits hdr1 0x20 fab ∧ 1 ≤ (480#16).toNat ∧ (480#16).toNat ≤ 480
      ∧ (15904#16).toNat + (480#16).toNat ≤ 16384 ∧ (List.replicate 960 (0#8)).length = 2 * (480#16).toNat ∧ true = !managed.fab.epoch.current
      ∧ false = managed.fab.epoch.current ∧ managed.admits hdr1 0x22 fab
      ∧ ({ managed with fab := { managed.fab with epoch := { settling := true } } } : State).fab.epoch.settling = true
      ∧ managed.admits hdr1 0x23 fab ∧ 8 ≤ (8#5).toNat ∧ (17#5).toNat ≤ 17 ∧ managed.standInOk 18 8 = true ∧ (managed.link 18).status.state ≠ 3
      ∧ ((down true).link 18).ctrl.enable = true ∧ ((down true).link 18).status.state ≠ 3 ∧ ((down false).link 18).ctrl.enable = false
      ∧ (down true).admits hdr1 0x23 fab ∧ managed.admits hdr1 0x24 fab ∧ managed.fab.probeSent = none := by
  dsimp only
  and_intros <;> decide +kernel

/-- `managed` with an open transfer of key slot 1 into slot 1, whose image has a body of one byte. -/
def transferring (f : Image → Image) : State :=
  { managed with mgmt := { managed.mgmt with transfer := some { key := 1, i3c := false } }, flash := { managed.flash with slots := #v[some firstImage, some (f firstImage)] } }

theorem witness_ImagesKeysLifeCycleAndTrials :
    let need : Need := { roles := roleService }
    let trial : State := { managed with mgmt := { managed.mgmt with trial := { trial := true } } }
    let gap : State := { managed with host := { managed.host with service := 1 } }
    let ps3 : State := { managed with clocks := { managed.clocks with pkg := .ps3 } }
    let begins : State := { managed with boot := { managed.boot with starting := true } }
    let mctp : State := { managed with host := { managed.host with ports := managed.host.ports.set 0 { up := true } } }
    let named (s : State) (h : MgmtHdr) : Prop := s.fwFree = true ∧ s.hears h = true ∧ h.formOk = true ∧ h.destTag = s.fuses.serialTag
    let staged (b : Bool) : State := { managed with mgmt := { managed.mgmt with fw := { slot1Valid := b } } }
    let log : State := { managed with flash := { managed.flash with defects := [{ kind := 1, cause := 0 }] } }
    let life (n : BitVec 3) : State := { managed with fuses := { managed.fuses with lifecycle := n } }
    let svn (n : BitVec 6) : State := { transferring id with fuses := { managed.fuses with svn := n } }
    let tick (n : BitVec 32) : State := { trial with flash := { managed.flash with boot := #v[some { trial := true, trialSeconds := n }, none] } }
    let well : State := { trial with mgmt := { trial.mgmt with trialClear := 120, noStall := 60, trial := { trial := true, cpbTested := true } } }
    let switched : State := { tick 0 with mgmt := { (tick 0).mgmt with trialSwitches := 2 } }
    let x := firstImage
    managed.fwFree = true ∧ gap.host.service ≠ 0 ∧ gap.admits hdr1 0x33 need ∧ begins.boot.starting = true ∧ begins.admits hdr1 0x33 need
      ∧ managed.mgmt.spdmHeld = [] ∧ gap.fwUp = false ∧ gap.pathUp .i3c = true ∧ gap.clocks.pkg = .run
      ∧ ps3.pathUp .i3c = true ∧ ps3.clocks.pkg = .ps3 ∧ (ps3.wakeCode (SpdmPath.source .i3c)).isSome = true
      ∧ mctp.pathUp (.mctp false) = true ∧ (mctp.hostPort false).busMaster = false
      ∧ managed.admits hdr1 0x30 need ∧ hdr1.i3c = false ∧ ({ header := x.header } : Image).formOk = true ∧ managed.mgmt.trial.trial = false
      ∧ ({ header := 0 } : Image).formOk = false ∧ trial.fwFree = true ∧ trial.admits hdr1 0x30 need ∧ trial.mgmt.trial.trial = true
      ∧ managed.admits { hdr1 with i3c := true } 0x30 need
      ∧ named (transferring id) hdr1 ∧ lifeOk (transferring id).fuses.lifecycle 0x31 hdr1.key = true ∧ (transferring id).dataOk hdr1 = true
      ∧ (transferring id).mgmt.transfer.isSome = true ∧ (transferring id).slot (!(transferring id).mgmt.fw.activeSlot) = some x ∧ 0 + 1 ≤ x.bodyLen
      ∧ x.bodyLen < 1 + 1 ∧ (transferring id).transferLive = true ∧ (transferring id).keyOk hdr1 0x32 need = true
      ∧ lifeOk (transferring id).fuses.lifecycle 0x32 hdr1.key = true ∧ (svn 0).fuses.svn.toNat ≤ x.svn ∧ (svn 0).limitsOk x = true ∧ x.complete = true
      ∧ x.svn < (svn 1).fuses.svn.toNat ∧ named (svn 1) hdr1 ∧ (staged true).admits hdr1 0x33 need ∧ (staged true).activateCheck true = 0
      ∧ (staged false).activateCheck true ≠ 0 ∧ managed.admits hdr1 0x34 need
      ∧ named managed hdr0 ∧ changeBy managed.fuses.lifecycle 3 = some .owner ∧ lifeOk managed.fuses.lifecycle 0x35 hdr0.key = true
      ∧ managed.changeOk hdr0 false .owner = true ∧ managed.changeBusy 3 = false ∧ trial.changeBusy 3 = true ∧ named trial hdr0
      ∧ changeBy managed.fuses.lifecycle 0 = none ∧ managed.admits hdr0 0x36 {} ∧ (3#2) ≠ 0 ∧ managed.admits hdr1 0x37 need
      ∧ log.admits hdr1 0x37 need ∧ (∃ e ∈ log.flash.defects, e.word = (1#96)) ∧ (∀ e ∈ managed.flash.defects, e.word ≠ (1#96))
      ∧ (life 3).admits { hdr0 with key := 4 } 0x38 need ∧ run.pathUp .i3c = true ∧ run.clocks.pkg = .run ∧ run.fwUp = true
      ∧ (life 4).fuses.lifecycle = 4 ∧ managed.fuses.lifecycle ≠ 4 ∧ (spdmStep .getVersion).1 ≤ managed.spdmLevel .i3c
      ∧ (spdmStep .getVersion).2 = some 1 ∧ run.jtagOk .idcode = true
      ∧ (tick 598).trialRuns = true ∧ (tick 598).countTrial.bootRec.trialSeconds.toNat < 600 ∧ 600 ≤ (tick 599).countTrial.bootRec.trialSeconds.toNat
      ∧ (tick 598).mgmt.trialSwitches < 2 ∧ (switched.trialRuns = true ∧ 2 ≤ switched.mgmt.trialSwitches)
      ∧ well.trialRuns = true ∧ well.healthy = true := by
  dsimp only
  and_intros <;> decide +kernel

theorem witness_AStepGivesTheFrontCommandItsEffect :
    let waits := withHost fun h => { h with ports := h.ports.set 1 { up := true, resting := [.read 0 4] } }
    waits.pending = [] ∧ waits.clocks.pkg = .run ∧ (waits.hostPort true).resting = [.read 0 4] ∧ (waits.hostPort false).resting = []
      ∧ (∀ host, (run.hostPort host).held = [] ∧ (run.hostPort host).resting = []) ∧ run.mgmt.held = [] ∧ run.mgmt.spdmHeld = []
      ∧ run.pending = [] ∧ State.reset.lands.bedrockPg = false ∧ run.lands.bedrockPg = true ∧ run.clocks.clk.refRack = true ∧ run.clocks.absorb = 0
      ∧ (withClocks fun c => { c with clk := { c.clk with refRack := false } }).clocks.clk.refRack = false := by decide +kernel

theorem witness_CoreInstructionsDecodeFromTheirWords : Instr.issueOf (.qpush i0 31 7 3 true 0x7FFF) = some i0 := by decide +kernel

theorem witness_SecurityVersionNeverFalls :
    State.reset.svnAtLeast 0 ∧ step State.reset = .next State.reset ∧ State.reset.pending.head? ≠ some .imageConfirm :=
  ⟨by decide +kernel, rfl, by decide +kernel⟩

/-! ## Well-formedness: one term that each check refuses -/

theorem test_wf_refuses_each_ill_formed_command :
    let q (n : Nat) : Pkt := { reqPkt 0 64 with data := List.replicate n (0, false) }
    let req (space : BitVec 2) (addr n : Nat) : MeshReq := req0 space addr n false
    -- symbol errors: a place off the codeword, a difference of zero, one place twice
    errsOk [(135, 1)] = true ∧ errsOk [(136, 1)] = false ∧ errsOk [(0, 0)] = false ∧ errsOk [(0, 65536)] = false ∧ errsOk [(3, 1), (3, 2)] = false
      ∧ (Instr.granuleRead .cp 0 0 [(136, 1)]).wf = false ∧ (Instr.patrolRead 0 252645120 []).wf = false
      -- mailboxes: the chip has 16
      ∧ (Instr.mbPost false { chip := true, part := 0, n := 15 }).wf = true ∧ (Instr.mbPost false { chip := true, part := 0, n := 16 }).wf = false
      ∧ (Instr.query { chip := true, part := 1, n := 0 }).wf = false
      -- packets: eight data cells
      ∧ (Instr.write (q 8)).wf = true ∧ (Instr.write (q 9)).wf = false
      -- mesh requests: one granule or line, in the space, not empty
      ∧ (Instr.granuleWrite (req 0 255 1) []).wf = true ∧ (Instr.granuleWrite (req 0 255 2) []).wf = false
      ∧ (Instr.inboundMeshAccess (req 1 (2 ^ 21 - 64) 64)).wf = true ∧ (Instr.inboundMeshAccess (req 1 (2 ^ 21) 1)).wf = false
      ∧ (Instr.inboundMeshAccess (req 1 0 0)).wf = false ∧ (Instr.inboundMeshAccess (req 3 0 1)).wf = false
      ∧ (Instr.stackRadd (req 1 0 4) []).wf = false ∧ (Instr.localRadd (req 0 0 4) []).wf = false
      -- scrubs, sweeps
      ∧ (Instr.sramScrub 0 false 1023 (2 ^ 15 - 1) []).wf = true ∧ (Instr.sramScrub 0 false 0 (2 ^ 15) []).wf = false
      ∧ (Instr.sramScrub 0 true 32 0 []).wf = false ∧ (Instr.sweepPage 0 0 15790320).wf = false
      -- readings, accesses, lanes, trims, activity, stages
      ∧ (Instr.mcTempRead 0 (some 65535)).wf = true ∧ (Instr.mcTempRead 0 (some 65536)).wf = false ∧ (Instr.thermalTrip 0 none none (some 65536)).wf = false
      ∧ (Instr.registerWrite false (.write 0 4 (2 ^ 32))).wf = false ∧ (Instr.registerWrite false (.write 0 2 0)).wf = false
      ∧ (Instr.registerWrite false (.read 0 8)).wf = true ∧ (Instr.bar2Read false 0 0).wf = false ∧ (Instr.bar2Write false 0 [] false).wf = false
      ∧ (Instr.idle 0 { bits := 0, fec := [[2175]] }).wf = true ∧ (Instr.idle 0 { bits := 0, fec := [[2176]] }).wf = false ∧ (Instr.trimEnd (some [[600]])).wf = false
      ∧ (Instr.powerEstimatePass { clusters := List.replicate 33 [] }).wf = false
      ∧ (Instr.acceptanceTest 0 0 [0, 0, 0, 0, 0] 0).wf = false ∧ (Instr.acceptanceTest 0 1 [0, 0, 0, 0] 0).wf = false ∧ (Instr.stageEnd (.s5 [(0, 36)] [])).wf = false
      ∧ (Instr.stageEnd (.s5 [] [32])).wf = false ∧ (Instr.launch 0 (2 ^ 32)).wf = false ∧ (Instr.contextAbortEnd 0 0 [0, 0, 0, 0, 0]).wf = false := by
  dsimp only
  and_intros <;> decide +kernel

/-! ## Core words, written out field by field from the tables of R80 to R83 -/

theorem test_scalar_words :
    decodeCoreWord i0 (0#32) = some (.nop i0 0)
      ∧ decodeCoreWord i0 (0x01#6 ++ 3#5 ++ 1#5 ++ 2#5 ++ 0x001#11) = some (.sub i0 3 1 2)
      ∧ decodeCoreWord i0 (0x01#6 ++ 31#5 ++ 30#5 ++ 29#5 ++ 0x00B#11) = some (.sltu i0 31 30 29)
      ∧ decodeCoreWord i0 (0x01#6 ++ 3#5 ++ 1#5 ++ 2#5 ++ 0x00C#11) = none
      ∧ decodeCoreWord i0 (0x02#6 ++ 3#5 ++ 1#5 ++ 0xFFFF#16) = some (.addi i0 3 1 0xFFFF)
      ∧ decodeCoreWord i0 (0x05#6 ++ 3#5 ++ 1#5 ++ 63#16) = some (.shli i0 3 1 63)
      ∧ decodeCoreWord i0 (0x08#6 ++ 3#5 ++ 1#5 ++ 8#16) = some (.ld i0 3 1 8)
      ∧ decodeCoreWord i0 (0x09#6 ++ 3#5 ++ 1#5 ++ 8#16) = some (.st i0 3 1 8)
      ∧ decodeCoreWord i0 (0x0C#6 ++ 1#5 ++ 2#5 ++ 0xFFFE#16) = some (.beq i0 1 2 0xFFFE)
      ∧ decodeCoreWord i0 (0x10#6 ++ 31#5 ++ 0x100000#21) = some (.jal i0 31 0x100000)
      ∧ decodeCoreWord i0 (0x11#6 ++ 31#5 ++ 1#5 ++ 0#16) = some (.jr i0 31 1 0)
      ∧ decodeCoreWord i0 (0x07#6 ++ 0#26) = none := by decide +kernel

theorem test_matrix_and_vector_words :
    decodeCoreWord i0 (0x14#6 ++ 7#3 ++ 0#2 ++ 1#5 ++ 128#16) = some (.mdload i0 7 0 1 128)
      ∧ decodeCoreWord i0 (0x15#6 ++ 7#3 ++ 0#2 ++ 0#5 ++ 0#16) = some (.mma i0 7 0)
      ∧ decodeCoreWord i0 (0x16#6 ++ 0#10 ++ 8#16) = some (.waitm i0 0 8)
      ∧ decodeCoreWord i0 (0x18#6 ++ 4#5 ++ 1#5 ++ 2#5 ++ 3#5 ++ 0x03#6) = some (.vfma i0 4 1 2 3)
      ∧ decodeCoreWord i0 (0x18#6 ++ 4#5 ++ 1#5 ++ 2#5 ++ 3#5 ++ 0x10#6) = some (.vcvt i0 4 1 2 3)
      ∧ decodeCoreWord i0 (0x18#6 ++ 4#5 ++ 1#5 ++ 0#5 ++ 0#5 ++ 0x0D#6) = some (.vbcast i0 4 1 0)
      ∧ decodeCoreWord i0 (0x18#6 ++ 0#20 ++ 0x0F#6) = none
      ∧ decodeCoreWord i0 (0x19#6 ++ 4#5 ++ 1#5 ++ 64#16) = some (.vld i0 4 1 64)
      ∧ decodeCoreWord i0 (0x1A#6 ++ 4#5 ++ 1#5 ++ 64#16) = some (.vst i0 4 1 64) := by decide +kernel

theorem test_queue_and_system_words :
    decodeCoreWord i0 (0x1C#6 ++ 4#5 ++ 0#5 ++ 7#3 ++ 3#2 ++ 1#1 ++ 0#10) = some (.qpush i0 4 7 3 true 0)
      ∧ decodeCoreWord i0 (0x1D#6 ++ 4#5 ++ 0#5 ++ 7#3 ++ 3#2 ++ 0#11) = some (.qpop i0 4 7 3 0)
      ∧ decodeCoreWord i0 (0x1E#6 ++ 4#5 ++ 0#5 ++ 7#3 ++ 0#13) = some (.qcount i0 4 7 0)
      ∧ decodeCoreWord i0 (0x20#6 ++ 0#5 ++ 1#5 ++ 2#5 ++ 2047#11) = some (.put i0 1 2 2047)
      ∧ decodeCoreWord i0 (0x21#6 ++ 0#5 ++ 1#5 ++ 2#5 ++ 1#11) = some (.radd i0 1 2 1)
      ∧ decodeCoreWord i0 (0x24#6 ++ 0#1 ++ 15#4 ++ 1#5 ++ 64#16) = some (.dmaq i0 15 false 1 64)
      ∧ decodeCoreWord i0 (0x28#6 ++ 0#10 ++ 2#16) = some (.fence i0 0 2) ∧ decodeCoreWord i0 (0x29#6 ++ 0#10 ++ 1#16) = some (.bar i0 0 1)
      ∧ decodeCoreWord i0 (0x2A#6 ++ 0#10 ++ 1023#16) = some (.waitt i0 0 1023)
      ∧ decodeCoreWord i0 (0x2C#6 ++ 3#5 ++ 0#5 ++ 4#16) = some (.csrr i0 3 0 4) ∧ decodeCoreWord i0 (0x2D#6 ++ 0#5 ++ 1#5 ++ 10#16) = some (.csrw i0 0 1 10)
      ∧ decodeCoreWord i0 (0x30#6 ++ 0#26) = some (.endContext i0 0) ∧ decodeCoreWord i0 (0x31#6 ++ 0#10 ++ 255#16) = some (.trap i0 0 255)
      ∧ decodeCoreWord i0 (0x32#6 ++ 0#26) = none := by decide +kernel

/-! ## Single steps; the expected values are the spec's or worked out by hand from it -/

/-- The state after a command. -/
def after (c : Instr) (s : State) : State := match exec c s with
  | .next t => t
  | _ => s

/-- `run` with g1 and g2. -/
def regs (x y : Word) : State := withCore fun c => { c with g := (c.g.set 1 x).set 2 y }

/-- `run` with v1 and v2. -/
def vecs (x y : Block) : State := withCore fun c => { c with v := (c.v.set 1 x).set 2 y }

/-- g3 after a command. -/
def g3 (c : Instr) (s : State) : Word := ((after c s).core 0 0).gr 3

/-- R82: wrapping, the high product, signed and unsigned comparison, shift counts modulo 64. -/
theorem test_alu_corners :
    g3 (.add i0 3 1 2) (regs (2 ^ 64 - 1) 1) = 0 ∧ g3 (.sub i0 3 1 2) (regs 0 1) = BitVec.allOnes 64
      ∧ g3 (.mulhu i0 3 1 2) (regs (2 ^ 64 - 1) 16) = 15 ∧ g3 (.slt i0 3 1 2) (regs (2 ^ 64 - 1) 0) = 1
      ∧ g3 (.sltu i0 3 1 2) (regs (2 ^ 64 - 1) 0) = 0 ∧ g3 (.sar i0 3 1 2) (regs (2 ^ 63) 63) = BitVec.allOnes 64
      ∧ g3 (.shl i0 3 1 2) (regs 1 65) = 2 := by decide +kernel

/-- R81: LUI sign-extends before it shifts; ANDI zero-extends; ADDI sign-extends. -/
theorem test_immediates :
    g3 (.lui i0 3 0x8000) run = BitVec.ofNat 64 (2 ^ 64 - 2 ^ 31) ∧ g3 (.andi i0 3 1 0x8000) (regs (2 ^ 64 - 1) 0) = 0x8000
      ∧ g3 (.addi i0 3 1 0xFFFF) (regs 0 0) = BitVec.allOnes 64 := by decide +kernel

/-- R81: a branch backwards from 0 leaves the segment: the address fault, with nothing else changed. -/
theorem test_branch_out_of_the_segment :
    let c := (after (.beq i0 0 0 0xFFFF) run).core 0 0
    c.faulted = true ∧ c.fault.code = 0x0207 ∧ c.faultAddr = BitVec.ofNat 64 (2 ^ 64 - 4) ∧ c.pc = 0 := by decide +kernel

/-- R77: the instruction at SEG_LEN − 4 completes, and the fetch at SEG_LEN raises the address fault there. -/
theorem test_fetch_past_the_segment :
    let c := (after (.addi i0 3 0 7) (withCore fun c => { c with pc := 60 })).core 0 0
    c.gr 3 = 7 ∧ c.faulted = true ∧ c.fault.cause = 3 ∧ c.faultPc = 64 ∧ c.faultAddr = 64 := by decide +kernel

/-- R81: ST is little-endian, and LD brings it back. -/
theorem test_store_and_load :
    let t := after (.st i0 1 0 16) (regs 0x0102030405060708 0)
    Mem.get t.sram 16 = 8 ∧ Mem.get t.sram 23 = 1 ∧ ((after (.ld i0 3 0 16) t).core 0 0).gr 3 = 0x0102030405060708 := by decide +kernel

/-- R83: lane 63 of 1.0 + 2.0. -/
theorem test_vadd_last_lane :
    lane (((after (.vadd i0 3 1 2) (vecs (ofLanes fun _ => 0x3F800000) (ofLanes fun _ => 0x40000000))).core 0 0).vr 3) 63 = 0x40400000 := by
  decide +kernel

/-- R89: 1 / 0 is an infinity and sets V_DIVZERO. -/
theorem test_vrcp_of_zero :
    let c := (after (.vrcp i0 3 1) run).core 0 0
    lane (c.vr 3) 0 = 0x7F800000 ∧ c.vec.vDivzero = true := by decide +kernel

/-- R84 to R87: 1.0 × 2.0 in BF16 is 2.0 in FP32, written little-endian at D. -/
theorem test_matrix_product :
    let s : State := { mma0 128 0 1 with sram := Mem.write (Mem.write [] 0 [0x80, 0x3F]) 64 [0x00, 0x40], clus := run.clus.set 0 { waves := 1, quiet := false } }
    Mem.read (after (.matrixOperationComplete 0 0) s).sram 128 4 = [0x00, 0x00, 0x00, 0x40] := by decide +kernel

/-- R150, R153: two words leave, two credits go, NEXT_SLOT wraps from 31 to 1 of 32. -/
theorem test_qpush :
    let t := after (.qpush i0 1 0 1 true 0) (bound0 6 4)
    (t.qout 0 0 0).st.credits = 2 ∧ (t.qout 0 0 0).st.nextSlot = 1 ∧ t.fab.inject.length = 1 ∧ (t.core 0 0).pc = 4 := by decide +kernel

/-- R150, R154: three words leave slots 30, 31 and 0; the emptied queue returns its three credits. -/
theorem test_qpop :
    let t := after (.qpop i0 3 0 2 0) (side0 qin0)
    (t.qin 0 0 0).st.head = 1 ∧ (t.qin 0 0 0).words = [] ∧ (t.fab.deliver.map fun p => (p.cls, p.type, Pkt.field p 0 0 20)) = [(1, 4, 3)] := by
  decide +kernel

/-- R155: three words, three packets. -/
theorem test_qcount : g3 (.qcount i0 3 0 0) (side0 qin0) = BitVec.ofNat 64 (3 + 3 * 2 ^ 24) := by decide +kernel

/-- R110, R118: a PUT of a line goes on the mesh; performed, its bytes stand in the granule. -/
theorem test_put_and_its_write :
    let s := after (.put i0 0 1 1) { put0 1 0 with sram := Mem.write [] 0 [7] }
    s.mesh.length = 1 ∧ (∀ r ∈ s.mesh, Mem.get (after (.granuleWrite r []) s).hbm.data (256 * 349520) = 7) := by decide +kernel

/-- R168: the descriptor's one request carries the scratchpad's bytes to stacked memory. -/
theorem test_dma_request :
    let s : State := { chan0 {} true (work0 (dma0 0)) with sram := Mem.write [] 63 [9] }
    (after (.dmaRequestIssue 0 0) s).mesh.map (fun r => (r.addr, r.bytes.length, r.bytes.getLast?)) = [(0x10000000, 64, some 9)] := by decide +kernel

/-- R76, R231: END keeps the carry set with g0 and g31 zero, and the core is idle. -/
theorem test_end :
    let c := (after (.endContext i0 0) (withCore fun c => { c with g := (c.g.set 5 9).set 31 8 })).core 0 0
    c.ctx = none ∧ c.state = 0 ∧ c.carry[5] = 9 ∧ c.carry[31] = 0 := by decide +kernel

/-- R104: TRAP's code is its low 8 bits. -/
theorem test_trap :
    let c := (after (.trap i0 0 0x1FF) run).core 0 0
    c.fault.code = 0x0113 ∧ c.fault.cause = 7 ∧ c.faultAddr = 0xFF := by decide +kernel

/-- R97: the eighth wave ends the ramp. -/
theorem test_last_wave :
    (after (.rampWaveEnable 0 7) { run with clus := run.clus.set 0 { ramping := true, waves := 127 } }).clus[0] = { waves := 255 } := by decide +kernel

/-- R124: a granule beyond correction reads as poison and is logged. -/
theorem test_uncorrectable_granule :
    let t := after (.granuleRead .cp 0 0x10000000 [(0, 4595), (1, 30169), (2, 60338), (3, 36760)]) run
    (t.metaAt 349520).poison = true ∧ t.hbm.mcs[0].errCount.ue = 1 := by decide +kernel

/-- R190 to R194: a posted NOP is accepted by a sweep, and its command ends it with code 0. -/
theorem test_mailbox_round :
    let t := after .mailboxScan (after (.mbPost false mb0) (run.setMailbox mb0 { cmd := cmdOf 1 [] }))
    (t.mailbox mb0).status.state = 2 ∧ ((after (.nopCommand mb0) t).mailbox mb0).status.state = 3 ∧ t.host.lastSeq = 1 := by decide +kernel

/-- R293: a WRITE for an unreachable device goes no further; its sender, device 6, is sent a REFUSE. -/
theorem test_unreachable_packet :
    let t := after (.packetForward .inject 0) { routed with fab := { routed.fab with inject := [{ reqPkt 0 64 with dest := 7 }] } }
    t.fab.inject.map (fun p => (p.dest, p.cls, p.type)) = [(6, 1, 2)] ∧ t.fab.wire = [] := by decide +kernel

/-- R262: a cell out of order is answered by one NAK with the LSEQ expected. -/
theorem test_cell_out_of_order :
    (after (.cellReceive 0 (rxOf (.cell 5 (cell0 0)) none)) (withLink 0 linkUp)).fab.wire = [(0, (Wire.link (.nak 0)).bits none)] := by decide +kernel

/-- R346: a step down lowers the frequency first and asks for the lower voltage. -/
theorem test_step_down :
    let t := after .vfStep (withPower fun w => { w with status := { w.status with step := 1, target := 0 }, freq := 900 })
    t.power.freq = 800 ∧ t.power.move = some { up := false, goal := 0 } := by decide +kernel

/-- R363: two chains at 110.0 °C trip the package. -/
theorem test_thermal_trip :
    (after (.thermalTrip 0 (some 440) (some 440) (some 0)) run).power.status.tripped = true
      ∧ (after (.thermalTrip 0 (some 440) (some 439) (some 0)) run).power.status.tripped = false := by decide +kernel

/-- R372: the first edges of the pattern add 6 and 7 ns; without the reference a tick is 250 ns (R369). -/
theorem test_ticks :
    run.tick.time = 6 ∧ run.tick.tick.time = 13 ∧ ({ run with clocks := {} } : State).tick.time = 250 := by decide +kernel

/-- R460: confirmation raises the counter to the image's SVN. -/
theorem test_confirmation :
    let s : State := { managed with mgmt := { managed.mgmt with
      fw := { svn := 3 }, trialClear := 120, noStall := 60, trial := { trial := true, cpbTested := true } } }
    (after .imageConfirm s).fuses.svn = 3 := by decide +kernel

/-- R438: a COUNTER that is not above the last accepted one is refused with 0x0601. -/
theorem test_stale_counter :
    let t := after (.heartbeat { hdr1 with counter := 0 }) managed
    t.mgmt.status.lastReject = 0x0601 ∧ t.mgmt.status.rejected = 1 := by decide +kernel

/-- R466, R468: the spec's example, the land P13_RX_N of lane 2. -/
theorem test_land_of_a_lane :
    (fabLand 13 2 .rxN).row = 8 ∧ (fabLand 13 2 .rxN).col = 82 ∧ (fabLand 13 2 .rxN).centre = (14850, 51750) := by decide +kernel

/-- The check value of the CRC-32 of IEEE 802.3: that of the nine characters 1 to 9. -/
theorem test_crc32 : crc32 [0x31, 0x32, 0x33, 0x34, 0x35, 0x36, 0x37, 0x38, 0x39] = 0xCBF43926 := by decide +kernel

/-- A memory in its form stays in it, and a zero byte is not listed. -/
theorem test_memory_form : Mem.write [] 5 [1, 0, 2] = [(5, 1), (7, 2)] ∧ Mem.write (Mem.write [] 5 [1]) 5 [0] = [] := by decide +kernel

end Sys2Proof.Tests
end

section
/-! PROOFS. Core registers: what CSRR brings and CSRW writes (R73, R100, R101). -/

namespace Sys2Proof.Machine

/-- An offset past the table "Core block" names no register. -/
theorem State.coreReg_beyond (s : State) (p : PartNo) (k : Fin 1024) (c : Core) {n : Nat} (h : 14 ≤ n) :
    s.coreReg p k c n = none := by
  unfold State.coreReg
  split
  case h_15 => rfl
  all_goals omega

/-- CSRR of an offset that names a register brings it. -/
theorem leavesCore_csrr {s : State} {i : Issue} {imm : BitVec 16} {x : Word} (d : Reg) (h : s.takes i) (hf : s.follows i)
    (hx : s.coreReg i.part i.core (s.coreOf i) imm.toNat = some x) :
    LeavesCore i (.csrr i d 0 imm) s (((s.coreOf i).setGr d x).wentTo ((s.coreOf i).pc + 4)) :=
  leavesCore_done _ h hf rfl (by simp [rsvdBody, hx]) (by simp)

/-- CSRR of an offset that names no register raises the operand fault. -/
theorem leavesCore_csrr_operand {s : State} {i : Issue} {imm : BitVec 16} (d : Reg) (h : s.takes i)
    (hx : s.coreReg i.part i.core (s.coreOf i) imm.toNat = none) :
    LeavesCore i (.csrr i d 0 imm) s ((s.coreOf i).stopped 2 0x0111 0) :=
  leavesCore_fault 2 0x0111 0 h rfl (by simp [rsvdBody, hx])

/-- A write that leaves no flag with its trap bit set completes without the arithmetic fault (R74). -/
theorem arithDone_of_no_trap {c : Core} (h : c.arithTraps = false) : arithDone c = .done c := by
  simp [arithDone, h]

/-- CSRW of another register than the three writable ones raises the operand fault. -/
theorem leavesCore_csrw_operand {s : State} {i : Issue} {imm : BitVec 16} (a : Reg) (h : s.takes i) (h8 : imm ≠ 8) (h9 : imm ≠ 9)
    (h10 : imm ≠ 10) : LeavesCore i (.csrw i 0 a imm) s ((s.coreOf i).stopped 2 0x0111 0) := by
  refine leavesCore_fault 2 0x0111 0 h rfl ?_
  have n8 : imm.toNat ≠ 8 := fun e => h8 (BitVec.eq_of_toNat_eq e)
  have n9 : imm.toNat ≠ 9 := fun e => h9 (BitVec.eq_of_toNat_eq e)
  have n10 : imm.toNat ≠ 10 := fun e => h10 (BitVec.eq_of_toNat_eq e)
  -- n8, n9 and n10 rule out the match's numbered arms.
  simp only [rsvdBody, pureBody, beq_self_eq_true, if_true]

/-- Settles O16: each register by its offset, an offset beyond the table and a register that may not be written by the operand fault. -/
theorem coreRegistersReadAndWrite : Obligations.CoreRegistersReadAndWrite := by
  intro i d a imm s ht hf c w reads
  have hread {n : BitVec 16} {x : Word} (hx : s.coreReg i.part i.core c n.toNat = some x) : reads n x := leavesCore_csrr d ht hf hx
  refine ⟨hread rfl, hread rfl, hread rfl, hread rfl, hread rfl, hread rfl, hread rfl, hread rfl, hread rfl, hread rfl, hread rfl,
    hread rfl, hread rfl, hread rfl, fun h => ?beyond, ?vec, fun h => ?arith, fun h => ?arithCtrl, leavesCore_csrw_operand a ht⟩
  case beyond => exact leavesCore_csrr_operand d ht (s.coreReg_beyond _ _ _ h)
  case vec => exact leavesCore_done _ ht hf rfl rfl ⟨rfl, rfl, rfl, rfl⟩
  case arith => exact leavesCore_done _ ht hf rfl (congrArg (Prod.mk s) (arithDone_of_no_trap h)) ⟨rfl, rfl, rfl, rfl⟩
  case arithCtrl => exact leavesCore_done _ ht hf rfl (congrArg (Prod.mk s) (arithDone_of_no_trap h)) ⟨rfl, rfl, rfl, rfl⟩

end Sys2Proof.Machine
end
section
/-! PROOFS. The issue of a matrix operation (R51, R84, R86, R96, R104). -/

namespace Sys2Proof.Machine

/-- A second cause of fault in one instruction of a running core sets MULTI beside the first (R104). -/
theorem CRes.apply_faultWith {c : Core} (instr : Instr) (h : c.canIssue = true) (more : Bool) (cause : Nat) (code : Code)
    (addr : Word) : (CRes.faultWith more cause code addr).apply c instr = c.stoppedWith more (BitVec.ofNat 8 cause) code addr := by
  cases more with
  | false => exact CRes.apply_fault instr h cause code addr
  | true =>
    obtain ⟨h1, h2, h3, _⟩ := Core.canIssue_spec h
    simp only [CRes.faultWith, if_true, CRes.apply, Core.running_eq h1 h2, Core.raise_first h1 h2 h3]
    simp [Core.raise, Core.stopped, Core.stoppedWith, h1]

/-- An instruction whose body leaves the state alone and faults, perhaps for several causes. -/
theorem leavesCore_faultWith {s : State} {i : Issue} {instr : Instr} {b : Body} (more : Bool) (cause : Nat) (code : Code) (addr : Word)
    (h : s.takes i) (e : exec instr s = .next (s.issue i instr b)) (hb : b s (s.coreOf i) = (s, .faultWith more cause code addr)) :
    LeavesCore i instr s ((s.coreOf i).stoppedWith more (BitVec.ofNat 8 cause) code addr) := by
  refine ⟨_, e, ?_⟩
  rw [issue_taken h, hb, CRes.apply_faultWith (c := s.coreOf i) instr h.1]
  exact ⟨onlyCore_setCore _ _ _ _, core_setCore_same _ _ _ _⟩

/-- An instruction whose body changes other units too and is done with a core of the same place. -/
theorem issue_done {s s1 : State} {i : Issue} {b : Body} {c1 : Core} (instr : Instr) (h : s.takes i) (hf : s.follows i)
    (hb : b s (s.coreOf i) = (s1, .done c1))
    (k : c1.state = (s.coreOf i).state ∧ c1.held = (s.coreOf i).held ∧ c1.ctx = (s.coreOf i).ctx ∧ c1.pc = (s.coreOf i).pc) :
    s.issue i instr b = s1.setCore i.part i.core (c1.wentTo ((s.coreOf i).pc + 4)) := by
  obtain ⟨k1, k2, k3, k4⟩ := k
  obtain ⟨h1, h2, _, _⟩ := Core.canIssue_spec h.1
  rw [issue_taken h, hb, CRes.apply_done instr (k1.trans h1) (k2.trans h2), k4]
  rw [k4]; unfold Core.segLen; rw [k3]; exact hf

/-- The core's end of an issued matrix operation: it stands last among the outstanding ones (R84). -/
def Core.queueMm (c : Core) (slot : Fin 8) : Core :=
  { c with mms := c.mms ++ [{ desc := c.slots[slot], pc := c.pc, order := c.progress }] }

/-- The cluster's part in the issue of a matrix operation: a quiet one starts its ramp (R96). -/
def State.wakeCluster (s : State) (cl : Fin 32) : State := if s.clus[cl].quiet then s.startRamp cl else s

/-- Starting a ramp changes only the clusters. -/
theorem State.startRamp_only_clus (s : State) (cl : Fin 32) : s.startRamp cl = { s with clus := (s.startRamp cl).clus } := by
  unfold State.startRamp; split <;> rfl

theorem State.wakeCluster_only_clus (s : State) (cl : Fin 32) : s.wakeCluster cl = { s with clus := (s.wakeCluster cl).clus } := by
  unfold State.wakeCluster; split
  · exact s.startRamp_only_clus cl
  · rfl

/-- A quiet cluster that does not ramp yet starts its ramp with no wave enabled. -/
theorem State.wakeCluster_quiet {s : State} {cl : Fin 32} (hq : s.clus[cl].quiet = true) (hr : s.clus[cl].ramping = false) :
    (s.wakeCluster cl).clus[cl] = { s.clus[cl] with ramping := true, waves := 0, quiet := false } := by
  simp only [State.wakeCluster, if_pos hq, State.startRamp, hr, Bool.false_eq_true, if_false, State.updClu_clus]
  exact Vector.getElem_set_self cl.isLt

/-- A cluster that is not quiet is left as it is. -/
theorem State.wakeCluster_busy {s : State} {cl : Fin 32} (hq : s.clus[cl].quiet = false) : s.wakeCluster cl = s := by
  simp only [State.wakeCluster, hq, Bool.false_eq_true, if_false]

section
variable {i : Issue} {slot : Fin 8} {s : State} {c : Core}

/-- The ninth matrix operation waits (R84). -/
theorem mmaBody_full (h : 8 ≤ c.mms.length) : mmaBody i slot s c = (s, .wait 1) := by
  simp [mmaBody, h]

/-- A bad descriptor raises the operand fault, with MULTI where a range also leaves its space (R86, R104). -/
theorem mmaBody_operand (h : c.mms.length < 8) (hc : (MmDesc.ofBits c.slots[slot]).check (s.licence.granted.getLsbD 3) = .operand) :
    mmaBody i slot s c = (s, .faultWith (MmDesc.ofBits c.slots[slot]).addressBad 2 0x0111 0) := by
  simp only [mmaBody, ge_iff_le, Nat.not_le.mpr h, if_false, hc]

/-- Exact accumulation without the licence raises the operand fault with its own code (R51). -/
theorem mmaBody_notLicensed (h : c.mms.length < 8)
    (hc : (MmDesc.ofBits c.slots[slot]).check (s.licence.granted.getLsbD 3) = .notLicensed) :
    mmaBody i slot s c = (s, .faultWith (MmDesc.ofBits c.slots[slot]).addressBad 2 0x0105 0) := by
  simp only [mmaBody, ge_iff_le, Nat.not_le.mpr h, if_false, hc]

/-- A range that leaves its space raises the address fault at its base (R86). -/
theorem mmaBody_address (h : c.mms.length < 8) (hc : (MmDesc.ofBits c.slots[slot]).check (s.licence.granted.getLsbD 3) = .address) :
    mmaBody i slot s c = (s, .fault 3 0x0207 (BitVec.ofNat 64 (MmDesc.ofBits c.slots[slot]).badAddr)) := by
  simp only [mmaBody, ge_iff_le, Nat.not_le.mpr h, if_false, hc]

/-- A descriptor that passes is queued, and its cluster is woken (R84, R96). -/
theorem mmaBody_ok (h : c.mms.length < 8) (hc : (MmDesc.ofBits c.slots[slot]).check (s.licence.granted.getLsbD 3) = .ok) :
    mmaBody i slot s c = (s.wakeCluster (s.coreCluster i.part i.core), .done (c.queueMm slot)) := by
  simp only [mmaBody, ge_iff_le, Nat.not_le.mpr h, if_false, hc]; rfl

end

/-- Settles O13, by the number of outstanding operations and then by the answer of the descriptor's checks. -/
theorem mmaIssuesOrIsRefused : Obligations.MmaIssuesOrIsRefused := by
  intro i slot s ht hf c d cl check
  refine ⟨fun hl hc => ?ok, fun hl => ?full, fun hl hc => ?operand, fun hl hc => ?notLicensed, fun hl hc => ?address⟩
  case ok =>
    refine ⟨_, congrArg Host.Outcome.next (issue_done (b := rsvdBody true (mmaBody i slot)) (.mma i slot 0) ht hf (mmaBody_ok hl hc)
      ⟨rfl, rfl, rfl, rfl⟩), ?_, core_setCore_same _ _ _ _, State.wakeCluster_quiet, fun hq => ?_⟩
    · rw [s.wakeCluster_only_clus]; rfl
    · rw [State.wakeCluster_busy hq]; rfl
  case full => exact leavesCore_wait 1 ht rfl (mmaBody_full hl)
  case operand => exact leavesCore_faultWith _ 2 _ _ ht rfl (mmaBody_operand hl hc)
  case notLicensed => exact leavesCore_faultWith _ 2 _ _ ht rfl (mmaBody_notLicensed hl hc)
  case address => exact leavesCore_fault 3 _ _ ht rfl (mmaBody_address hl hc)

end Sys2Proof.Machine
end
section
/-! PROOFS. What writes of scratchpad and cluster memory change: the bytes and lines they cover, and nothing else (R105). -/

namespace Sys2Proof.Machine

theorem mem_linesOf {a n l : Nat} : l ∈ linesOf a n ↔ n ≠ 0 ∧ a / 64 ≤ l ∧ l ≤ (a + n - 1) / 64 := by
  unfold linesOf
  split
  · simp [*]
  · simp only [List.mem_map, List.mem_range]
    constructor
    · rintro ⟨x, hx, rfl⟩; omega
    · rintro ⟨_, h1, h2⟩; exact ⟨l - a / 64, by omega, by omega⟩

/-- A line that lies wholly in a range is a line of the range. -/
theorem mem_linesOf_of_covers {a n l : Nat} (h : covers a n l = true) : l ∈ linesOf a n := by
  simp only [covers, Bool.and_eq_true, decide_eq_true_eq] at h
  rw [mem_linesOf]; omega

theorem mem_insertNat {x y : Nat} {t : List Nat} : y ∈ insertNat x t ↔ y = x ∨ y ∈ t := by
  induction t with
  | nil => simp [insertNat]
  | cons z t ih => grind [insertNat]

@[simp] theorem length_bytesOfNat (n x : Nat) : (bytesOfNat n x).length = n := by simp [bytesOfNat]

/-- Two states differ in nothing but the SRAM, its poison and the free values used. -/
def SramOnly (s t : State) : Prop := t = { s with sram := t.sram, sramPoison := t.sramPoison, freeCtr := t.freeCtr }

theorem SramOnly.refl (s : State) : SramOnly s s := rfl

theorem SramOnly.trans {s t u : State} (h1 : SramOnly s t) (h2 : SramOnly t u) : SramOnly s u := by
  unfold SramOnly at *; rw [h2, h1]

/-- The map of core-local addresses stays in place while only the SRAM's contents change (R79). -/
theorem SramOnly.localAt {s t : State} (h : SramOnly s t) (p : PartNo) (k : Fin 1024) (a n : Nat) :
    t.localAt p k a n = s.localAt p k a n := by
  rw [h]; rfl

/-- A run of operations that change the SRAM only changes the SRAM only. -/
theorem SramOnly.foldl {α : Type} {f : State → α → State} (h : ∀ s x, SramOnly s (f s x)) (xs : List α) (s : State) :
    SramOnly s (xs.foldl f s) := by
  induction xs generalizing s with
  | nil => exact .refl s
  | cons x xs ih => exact (h s x).trans (ih (f s x))

theorem poisonSram_only (s : State) (a n : Nat) : SramOnly s (s.poisonSram a n) :=
  .foldl (f := State.poisonLine) (fun _ _ => rfl) _ s

theorem putSram_only (s : State) (a : Nat) (bs : List Byte) (poison : Bool) : SramOnly s (s.putSram a bs poison) := by
  cases poison
  · rfl
  · exact poisonSram_only s a bs.length

/-! ## One write -/

/-- A write without poison leaves the poison of every line that it does not touch. -/
theorem mem_writeSram_poison {s : State} {a l : Nat} {bs : List Byte} (h : l ∉ linesOf a bs.length) :
    l ∈ (s.writeSram a bs).sramPoison ↔ l ∈ s.sramPoison := by
  have hc : covers a bs.length l = false := Bool.eq_false_iff.mpr fun e => h (mem_linesOf_of_covers e)
  simp [State.writeSram, hc]

theorem mem_poisonLine {s : State} {l m : Nat} : m ∈ (s.poisonLine l).sramPoison ↔ m = l ∨ m ∈ s.sramPoison := mem_insertNat

/-- Poisoning a line leaves the bytes of every other line. -/
theorem get_poisonLine_other {s : State} {l x : Nat} (h : x / 64 ≠ l) : Mem.get (s.poisonLine l).sram x = Mem.get s.sram x :=
  Mem.get_write_other _ _ _ _ (by rw [length_bytesOfNat]; omega)

theorem mem_poisonSram {s : State} {a n l : Nat} : l ∈ (s.poisonSram a n).sramPoison ↔ l ∈ linesOf a n ∨ l ∈ s.sramPoison := by
  unfold State.poisonSram
  induction linesOf a n generalizing s with
  | nil => simp
  | cons m ms ih =>
    rw [List.foldl_cons, ih, mem_poisonLine, List.mem_cons]
    exact or_left_comm.trans or_assoc.symm

/-- Poisoning a range leaves the bytes of every line that it does not touch. -/
theorem get_poisonSram_other {s : State} {a n x : Nat} (h : x / 64 ∉ linesOf a n) :
    Mem.get (s.poisonSram a n).sram x = Mem.get s.sram x := by
  unfold State.poisonSram
  generalize linesOf a n = ls at h
  induction ls generalizing s with
  | nil => rfl
  | cons m ms ih =>
    obtain ⟨hm, hms⟩ := not_or.mp fun e => h (List.mem_cons.mpr e)
    rw [List.foldl_cons, ih hms, get_poisonLine_other hm]

/-! ## Several writes -/

/-- Write several byte strings, each at its place, all with poison or all without. -/
def State.putAll (s : State) (ws : List (Nat × List Byte)) (poison : Bool) : State :=
  ws.foldl (fun s w => s.putSram w.1 w.2 poison) s

@[simp] theorem State.putAll_nil (s : State) (poison : Bool) : s.putAll [] poison = s := rfl

@[simp] theorem State.putAll_cons (s : State) (w : Nat × List Byte) (ws : List (Nat × List Byte)) (poison : Bool) :
    s.putAll (w :: ws) poison = (s.putSram w.1 w.2 poison).putAll ws poison := rfl

theorem State.putAll_append (s : State) (ws vs : List (Nat × List Byte)) (poison : Bool) :
    s.putAll (ws ++ vs) poison = (s.putAll ws poison).putAll vs poison := List.foldl_append

theorem putAll_only (s : State) (ws : List (Nat × List Byte)) (poison : Bool) : SramOnly s (s.putAll ws poison) :=
  .foldl (f := fun s (w : Nat × List Byte) => s.putSram w.1 w.2 poison) (fun s w => putSram_only s w.1 w.2 poison) ws s

section
variable {s : State} {ws : List (Nat × List Byte)}

/-- Writes without poison leave every byte that none of them covers. -/
theorem get_putAll_clean {x : Nat} (h : ∀ w ∈ ws, ¬ (w.1 ≤ x ∧ x < w.1 + w.2.length)) :
    Mem.get (s.putAll ws false).sram x = Mem.get s.sram x := by
  induction ws generalizing s with
  | nil => rfl
  | cons w ws ih =>
    obtain ⟨hw, hws⟩ := List.forall_mem_cons.mp h
    rw [State.putAll_cons, ih hws]
    exact Mem.get_write_other _ _ _ _ (by omega)

/-- Writes without poison leave the poison of every line that none of them touches. -/
theorem mem_putAll_clean {l : Nat} (h : ∀ w ∈ ws, l ∉ linesOf w.1 w.2.length) :
    l ∈ (s.putAll ws false).sramPoison ↔ l ∈ s.sramPoison := by
  induction ws generalizing s with
  | nil => rfl
  | cons w ws ih =>
    obtain ⟨hw, hws⟩ := List.forall_mem_cons.mp h
    rw [State.putAll_cons, ih hws]
    exact mem_writeSram_poison hw

/-- Poisoned writes leave the bytes of every line that none of them touches. -/
theorem get_putAll_poison {x : Nat} (h : ∀ w ∈ ws, x / 64 ∉ linesOf w.1 w.2.length) :
    Mem.get (s.putAll ws true).sram x = Mem.get s.sram x := by
  induction ws generalizing s with
  | nil => rfl
  | cons w ws ih =>
    obtain ⟨hw, hws⟩ := List.forall_mem_cons.mp h
    rw [State.putAll_cons, ih hws]
    exact get_poisonSram_other hw

/-- Poisoned writes poison each line that they touch, and no other. -/
theorem mem_putAll_poison {l : Nat} :
    l ∈ (s.putAll ws true).sramPoison ↔ (∃ w ∈ ws, l ∈ linesOf w.1 w.2.length) ∨ l ∈ s.sramPoison := by
  induction ws generalizing s with
  | nil => simp
  | cons w ws ih =>
    have hw : l ∈ (s.putSram w.1 w.2 true).sramPoison ↔ l ∈ linesOf w.1 w.2.length ∨ l ∈ s.sramPoison := mem_poisonSram
    rw [State.putAll_cons, ih, hw]
    simp only [List.mem_cons, exists_eq_or_imp]
    exact or_left_comm.trans or_assoc.symm

end

end Sys2Proof.Machine
end

section
/-! PROOFS. The completion of the oldest matrix operation: what it writes to D, and how it leaves its core (R73, R74, R84, R87, R88,
R105, R106). -/

namespace Sys2Proof.Machine

/-! ## The write of D -/

/-- The bytes that row `i` of D, as the number `x`, puts in the SRAM, each string at its place (R87, R88). -/
def State.dRowWrites (s : State) (p : PartNo) (k : Fin 1024) (d : MmDesc) (i x : Nat) : List (Nat × List Byte) :=
  d.dPieces.filterMap fun q =>
    (s.localAt p k (d.dAddr + i * d.dLd + q.1) q.2).map fun key => (key, bytesOfNat q.2 (x / 2 ^ (8 * q.1)))

/-- The strings of several rows of D, each row with its flags and its number. -/
def State.dWritesOf (s : State) (p : PartNo) (k : Fin 1024) (d : MmDesc) (rows : List ((Nat × List (Nat × ElemFlags)) × Nat)) :
    List (Nat × List Byte) :=
  rows.flatMap fun r => s.dRowWrites p k d r.2 r.1.1

/-- Piece `q` of row `i` of D stands at `key` in the SRAM. -/
def State.dPieceAt (s : State) (p : PartNo) (k : Fin 1024) (d : MmDesc) (i : Nat) (q : Nat × Nat) (key : Nat) : Prop :=
  i < d.m ∧ q ∈ d.dPieces ∧ s.localAt p k (d.dAddr + i * d.dLd + q.1) q.2 = some key

section
variable {s u : State} {p : PartNo} {k : Fin 1024} {d : MmDesc}

/-- Writing a row of D writes its strings at their places. -/
theorem putRow_eq_putAll (h : SramOnly s u) (poison : Bool) (i x : Nat) :
    u.putRow p k d poison i x = u.putAll (s.dRowWrites p k d i x) poison := by
  unfold State.putRow State.dRowWrites
  induction d.dPieces generalizing u with
  | nil => rfl
  | cons q qs ih =>
    rw [List.foldl_cons, List.filterMap_cons, h.localAt]
    cases s.localAt p k (d.dAddr + i * d.dLd + q.1) q.2 with
    | none => exact ih h
    | some key => exact ih (h.trans (putSram_only _ _ _ _))

/-- Writing rows of D writes all their strings. -/
theorem foldl_putRow_eq_putAll (h : SramOnly s u) (poison : Bool) (rows : List ((Nat × List (Nat × ElemFlags)) × Nat)) :
    rows.foldl (fun s r => s.putRow p k d poison r.2 r.1.1) u = u.putAll (s.dWritesOf p k d rows) poison := by
  induction rows generalizing u with
  | nil => rfl
  | cons r rows ih =>
    rw [List.foldl_cons, putRow_eq_putAll h, ih (h.trans (putAll_only _ _ _)), ← State.putAll_append]
    rfl

/-- The strings written for rows 0 to m - 1 are those of D's pieces. -/
theorem exists_dWritesOf_iff {rows : List (Nat × List (Nat × ElemFlags))} (hm : rows.length = d.m) (P : Nat → Nat → Prop) :
    (∃ w ∈ s.dWritesOf p k d rows.zipIdx, P w.1 w.2.length) ↔ ∃ i q key, s.dPieceAt p k d i q key ∧ P key q.2 := by
  simp only [State.dWritesOf, State.dRowWrites, State.dPieceAt, List.mem_flatMap, List.mem_filterMap, Option.map_eq_some_iff]
  constructor
  · rintro ⟨_, ⟨⟨r, i⟩, hr, q, hq, key, hk, rfl⟩, hP⟩
    exact ⟨i, q, key, ⟨hm ▸ List.snd_lt_of_mem_zipIdx hr, hq, hk⟩, by simpa using hP⟩
  · rintro ⟨i, q, key, ⟨hi, hq, hk⟩, hP⟩
    have hr : (rows[i]'(hm ▸ hi), i) ∈ rows.zipIdx := List.mk_mem_zipIdx_iff_getElem?.mpr (List.getElem?_eq_getElem _)
    exact ⟨_, ⟨_, hr, q, hq, key, hk, rfl⟩, by simpa using hP⟩

end

/-- The rows of D that an operation writes, with their flags (R73, R87). -/
def State.mmRows (s : State) (p : PartNo) (k : Fin 1024) (d : MmDesc) (pr : Pairing) : List (Nat × List (Nat × ElemFlags)) :=
  (List.range d.m).map (s.mmRow p k (s.core p k).seed d pr)

/-- The state once D is written, or its lines poisoned (R87, R88, R105). -/
def State.withD (s : State) (p : PartNo) (k : Fin 1024) (d : MmDesc) (pr : Pairing) (poison : Bool) : State :=
  (s.mmRows p k d pr).zipIdx.foldl (fun s r => s.putRow p k d poison r.2 r.1.1) s

/-- Byte `x` of the SRAM belongs to D. -/
def State.inD (s : State) (p : PartNo) (k : Fin 1024) (d : MmDesc) (x : Nat) : Prop :=
  ∃ i q key, s.dPieceAt p k d i q key ∧ key ≤ x ∧ x < key + q.2

/-- D has bytes in line `l` of the SRAM. -/
def State.inDLine (s : State) (p : PartNo) (k : Fin 1024) (d : MmDesc) (l : Nat) : Prop :=
  ∃ i q key, s.dPieceAt p k d i q key ∧ l ∈ linesOf key q.2

section
variable {s : State} {p : PartNo} {k : Fin 1024} {d : MmDesc} {pr : Pairing}

theorem withD_eq_putAll (poison : Bool) :
    s.withD p k d pr poison = s.putAll (s.dWritesOf p k d (s.mmRows p k d pr).zipIdx) poison :=
  foldl_putRow_eq_putAll (.refl s) _ _

theorem length_mmRows : (s.mmRows p k d pr).length = d.m := by simp [State.mmRows]

theorem withD_only (poison : Bool) : SramOnly s (s.withD p k d pr poison) := by
  rw [withD_eq_putAll]; exact putAll_only _ _ _

/-- What no piece of D has, no string of D's write has, for a property of place and length. -/
theorem not_exists_dWrite {P : Nat → Nat → Prop} (h : ¬ ∃ i q key, s.dPieceAt p k d i q key ∧ P key q.2) :
    ∀ w ∈ s.dWritesOf p k d (s.mmRows p k d pr).zipIdx, ¬ P w.1 w.2.length := fun w hw hP =>
  h ((exists_dWritesOf_iff length_mmRows P).mp ⟨w, hw, hP⟩)

/-- Writing D leaves every byte that is not of D. -/
theorem get_withD_clean {x : Nat} (h : ¬ s.inD p k d x) : Mem.get (s.withD p k d pr false).sram x = Mem.get s.sram x := by
  rw [withD_eq_putAll]
  exact get_putAll_clean (not_exists_dWrite (P := fun key n => key ≤ x ∧ x < key + n) h)

/-- Writing D leaves the poison of every line that holds nothing of D. -/
theorem mem_withD_clean {l : Nat} (h : ¬ s.inDLine p k d l) :
    l ∈ (s.withD p k d pr false).sramPoison ↔ l ∈ s.sramPoison := by
  rw [withD_eq_putAll]
  exact mem_putAll_clean (not_exists_dWrite (P := fun key n => l ∈ linesOf key n) h)

/-- Poisoning D leaves every byte outside the lines of D. -/
theorem get_withD_poison {x : Nat} (h : ¬ s.inDLine p k d (x / 64)) :
    Mem.get (s.withD p k d pr true).sram x = Mem.get s.sram x := by
  rw [withD_eq_putAll]
  exact get_putAll_poison (not_exists_dWrite (P := fun key n => x / 64 ∈ linesOf key n) h)

/-- Poisoning D poisons its lines, and no other. -/
theorem mem_withD_poison {l : Nat} :
    l ∈ (s.withD p k d pr true).sramPoison ↔ s.inDLine p k d l ∨ l ∈ s.sramPoison := by
  rw [withD_eq_putAll, mem_putAll_poison]
  exact or_congr_left (exists_dWritesOf_iff length_mmRows fun key n => l ∈ linesOf key n)

/-- Once D is written and the core's end is set, no unit but the core and the SRAM has changed. -/
theorem withD_setCore_only (poison : Bool) (c : Core) :
    (s.withD p k d pr poison).setCore p k c = { s with
      cores := ((s.withD p k d pr poison).setCore p k c).cores, sram := (s.withD p k d pr poison).sram
      sramPoison := (s.withD p k d pr poison).sramPoison, freeCtr := (s.withD p k d pr poison).freeCtr } := by
  have h := withD_only (s := s) (p := p) (k := k) (d := d) (pr := pr) poison
  unfold SramOnly at h
  generalize s.withD p k d pr poison = t at *
  rw [h]; rfl

theorem core_withD (poison : Bool) (q : PartNo) (j : Fin 1024) : (s.withD p k d pr poison).core q j = s.core q j := by
  rw [withD_only (s := s) poison]; rfl

end

/-! ## The core -/

/-- Two cores differ in nothing but the record of a fault, that of poison and a held instruction. -/
def Core.FaultOnly (c r : Core) : Prop :=
  r = { c with faulted := r.faulted, faultOrder := r.faultOrder, fault := r.fault, faultPc := r.faultPc, faultAddr := r.faultAddr,
               held := r.held, poison := r.poison }

theorem Core.FaultOnly.trans {c r q : Core} (h1 : c.FaultOnly r) (h2 : r.FaultOnly q) : c.FaultOnly q := by
  unfold Core.FaultOnly at *; rw [h2, h1]

theorem Core.FaultOnly.keeps {c r : Core} (h : c.FaultOnly r) : r.mms = c.mms ∧ r.arith = c.arith ∧ r.g = c.g ∧ r.v = c.v
    ∧ r.vp = c.vp ∧ r.slots = c.slots ∧ r.pc = c.pc ∧ r.ctx = c.ctx ∧ r.carry = c.carry := by
  unfold Core.FaultOnly at h
  refine ⟨?_, ?_, ?_, ?_, ?_, ?_, ?_, ?_, ?_⟩ <;> rw [h]

theorem Core.raise_faultOnly (c : Core) (order : Word) (cause : Nat) (code : Code) (pc addr : Word) :
    c.FaultOnly (c.raise order cause code pc addr) := by
  unfold Core.FaultOnly Core.raise
  dsimp only
  split
  · rfl
  split
  · rfl
  split <;> rfl

@[simp] theorem Core.raise_poison (c : Core) (order : Word) (cause : Nat) (code : Code) (pc addr : Word) :
    (c.raise order cause code pc addr).poison = c.poison := by
  unfold Core.raise
  dsimp only
  split
  · rfl
  split
  · rfl
  split <;> rfl

/-- The first fault of a context is recorded (R103, R104). -/
theorem Core.raise_fresh {c : Core} (h5 : c.state ≠ 5) (hf : c.faulted = false) (order : Word) (cause : Nat) (code : Code)
    (pc addr : Word) : c.raise order cause code pc addr = { c with
      faulted := true, faultOrder := order, fault := { cause := BitVec.ofNat 8 cause, code := code }, faultPc := pc, faultAddr := addr,
      held := none } := by
  simp only [Core.raise, if_neg h5, hf, Bool.not_false, if_true]

/-- A fault of the same instruction whose cause stands no higher in the table leaves what is recorded but for MULTI (R104). -/
theorem Core.raise_lower {c : Core} (hf : c.faulted = true) {cause : Nat} (hc : ¬ BitVec.ofNat 8 cause < c.fault.cause) (code : Code)
    (pc addr : Word) : c.raise c.faultOrder cause code pc addr = { c with fault := { c.fault with multi :=
      if c.state = 5 then c.fault.multi else true } } := by
  by_cases h5 : c.state = 5
  · simp only [Core.raise, if_pos h5]
  · simp only [Core.raise, if_neg h5, hf, Bool.not_true, Bool.false_eq_true, if_false, BitVec.lt_irrefl, hc, and_false, or_false]

/-- A matrix operation leaves the outstanding ones and its flags are added (R73, R84). -/
def Core.dropMm (c : Core) (rest : List MmOp) (fl : List (Nat × ElemFlags)) : Core := { c with mms := rest, arith := c.arith.raise fl }

/-- An operation that read poison consumes it and, with POISON_TRAP, raises the first consumption at its own place (R105, R106). -/
def Core.mmPoison (c : Core) (op : MmOp) (rest : List MmOp) (fl : List (Nat × ElemFlags)) : Core :=
  let c2 := ((c.dropMm rest fl).consume 0).emit
  if c.ctrl.poisonTrap && !c.poison.consumed then c2.raise op.order 5 0x0201 op.pc 0 else c2

/-- A flag that the operation set, with its trap bit 1, raises the arithmetic fault at its own place (R74). -/
def Core.mmTrap (c : Core) (op : MmOp) (fl : List (Nat × ElemFlags)) : Core :=
  if ({ c with arith := CoreArithStatus.raise {} fl } : Core).arithTraps then c.raise op.order 6 0x0112 op.pc 0 else c

/-- How an operation leaves its core. -/
def Core.mmEnd (c : Core) (op : MmOp) (rest : List MmOp) (fl : List (Nat × ElemFlags)) (poison : Bool) : Core :=
  (if poison then c.mmPoison op rest fl else c.dropMm rest fl).mmTrap op fl

section
variable {c : Core} {op : MmOp} {rest : List MmOp} {fl : List (Nat × ElemFlags)}

/-- The core's end in the order in which the model computes it. -/
theorem Core.mmEnd_eq (poison : Bool) : c.mmEnd op rest fl poison =
    Core.mmTrap (if poison && c.ctrl.poisonTrap && !c.poison.consumed
      then (if poison then ((c.dropMm rest fl).consume 0).emit else c.dropMm rest fl).raise op.order 5 0x0201 op.pc 0
      else if poison then ((c.dropMm rest fl).consume 0).emit else c.dropMm rest fl) op fl := by
  cases poison <;> simp [Core.mmEnd, Core.mmPoison]

theorem Core.mmPoison_faultOnly : (c.dropMm rest fl).FaultOnly (c.mmPoison op rest fl) := by
  have h : (c.dropMm rest fl).FaultOnly ((c.dropMm rest fl).consume 0).emit := rfl
  unfold Core.mmPoison
  dsimp only
  split
  · exact h.trans (Core.raise_faultOnly _ _ _ _ _ _)
  · exact h

theorem Core.mmTrap_faultOnly : c.FaultOnly (c.mmTrap op fl) := by
  unfold Core.mmTrap
  split
  · exact Core.raise_faultOnly _ _ _ _ _ _
  · rfl

/-- Beside the outstanding operations and the flags, an operation can change only what its core records of faults and poison. -/
theorem Core.mmEnd_faultOnly (poison : Bool) : (c.dropMm rest fl).FaultOnly (c.mmEnd op rest fl poison) := by
  cases poison
  · exact Core.mmTrap_faultOnly
  · exact Core.mmPoison_faultOnly.trans Core.mmTrap_faultOnly

@[simp] theorem Core.mmTrap_poison : (c.mmTrap op fl).poison = c.poison := by
  unfold Core.mmTrap
  split
  · exact Core.raise_poison _ _ _ _ _ _
  · rfl

/-- Without poison and without a trap the core only drops the operation and adds its flags. -/
theorem Core.mmEnd_plain (ht : ({ c with arith := CoreArithStatus.raise {} fl } : Core).arithTraps = false) :
    c.mmEnd op rest fl false = c.dropMm rest fl := by
  exact if_neg (Bool.eq_false_iff.mp ht)

/-- Without poison a trap is the context's first fault, recorded at the operation's place (R74, R104). -/
theorem Core.mmEnd_trap (ht : ({ c with arith := CoreArithStatus.raise {} fl } : Core).arithTraps = true) (h5 : c.state ≠ 5)
    (hf : c.faulted = false) : c.mmEnd op rest fl false = { c.dropMm rest fl with
      faulted := true, faultOrder := op.order, fault := { cause := 6, code := 0x0112 }, faultPc := op.pc, faultAddr := 0, held := none } := by
  exact (if_pos ht).trans (Core.raise_fresh (c := c.dropMm rest fl) h5 hf _ _ _ _ _)

/-- A poisoned source is consumed, and the poisoned D is an emission (R101, R106). -/
theorem Core.mmEnd_poison_marks :
    (c.mmEnd op rest fl true).poison.consumed = true ∧ (c.mmEnd op rest fl true).poison.emitted = true := by
  have h : (c.mmEnd op rest fl true).poison = ((c.dropMm rest fl).consume 0).emit.poison := by
    simp only [Core.mmEnd, if_true, Core.mmTrap_poison, Core.mmPoison]
    split
    · exact Core.raise_poison _ _ _ _ _ _
    · rfl
  rw [h]; exact ⟨rfl, rfl⟩

/-- The context's first consumption of poison faults at the operation's place with POISON_TRAP, whatever its flags do (R104, R106). -/
theorem Core.mmEnd_poison_fault (hp : c.ctrl.poisonTrap = true) (hc : c.poison.consumed = false) (hf : c.faulted = false)
    (h5 : c.state ≠ 5) : (c.mmEnd op rest fl true).faulted = true ∧ (c.mmEnd op rest fl true).fault.cause = 5
      ∧ (c.mmEnd op rest fl true).fault.code = 0x0201 ∧ (c.mmEnd op rest fl true).faultPc = op.pc := by
  have e : c.mmPoison op rest fl = { ((c.dropMm rest fl).consume 0).emit with
      faulted := true, faultOrder := op.order, fault := { cause := 5, code := 0x0201 }, faultPc := op.pc, faultAddr := 0, held := none } := by
    simp only [Core.mmPoison, hp, hc, Bool.not_false, Bool.and_true, if_true]
    exact Core.raise_fresh (c := ((c.dropMm rest fl).consume 0).emit) h5 hf _ _ _ _ _
  have hm := Core.raise_lower (c := c.mmPoison op rest fl) (cause := 6) (congrArg Core.faulted e)
    (by rw [e]; exact (by decide : ¬ (6 : BitVec 8) < 5)) 0x0112 op.pc 0
  have ho : (c.mmPoison op rest fl).faultOrder = op.order := congrArg Core.faultOrder e
  rw [ho, e] at hm
  simp only [Core.mmEnd, if_true, Core.mmTrap, e, hm]
  split <;> exact ⟨rfl, rfl, rfl, rfl⟩

end

/-! ## The completion -/

/-- The flags of the whole operation (R73). -/
def State.mmFlags (s : State) (p : PartNo) (k : Fin 1024) (d : MmDesc) (pr : Pairing) : List (Nat × ElemFlags) :=
  ((s.mmRows p k d pr).map (·.2)).flatten

/-- Whether an operation reads poison (R105). -/
def State.mmReadsPoison (s : State) (p : PartNo) (k : Fin 1024) (d : MmDesc) (pr : Pairing) : Bool :=
  s.regionPoisoned p k d.regA || s.regionPoisoned p k d.regB || (d.cEn && s.regionPoisoned p k d.regC)
    || (pr.block != 0 && (s.regionPoisoned p k (d.regSa pr.block) || s.regionPoisoned p k (d.regSb pr.block)))

section
variable {s : State} {p : PartNo} {k : Fin 1024} {op : MmOp} {rest : List MmOp} {pr : Pairing}

/-- A core whose engines are enabled and that is neither ending nor lost completes its oldest operation (R84, R97). -/
theorem exec_matrixOperationComplete (hm : (s.core p k).mms = op :: rest) (ha : (s.core p k).aborting = false)
    (hl : (s.core p k).lost = false) (hp : s.partLive p = true) (he : s.coreEnabled p k = true) :
    exec (.matrixOperationComplete p k) s = .next (s.mmComplete p k op rest).retry := by
  rw [show exec (.matrixOperationComplete p k) s = execMatrixOperationComplete p k s from rfl]
  simp only [execMatrixOperationComplete, hm, ha, hl, hp, he, Bool.not_true, Bool.or_self, Bool.false_eq_true, if_false]

/-- The completion of an operation of a permitted pairing writes D, then its core's end. -/
theorem mmComplete_eq (h : pairingOf (MmDesc.ofBits op.desc).aFmt (MmDesc.ofBits op.desc).bFmt = some pr) :
    s.mmComplete p k op rest =
      (s.withD p k (MmDesc.ofBits op.desc) pr (s.mmReadsPoison p k (MmDesc.ofBits op.desc) pr)).setCore p k
        ((s.core p k).mmEnd op rest (s.mmFlags p k (MmDesc.ofBits op.desc) pr) (s.mmReadsPoison p k (MmDesc.ofBits op.desc) pr)) := by
  rw [Core.mmEnd_eq]
  simp only [State.mmComplete, h]
  rfl

end

/-- Settles O14: the completion writes D and the core's end, then lets what was held back go on. -/
theorem oldestMatrixOperationCompletes : Obligations.OldestMatrixOperationCompletes := by
  intro p k op rest pr s c d rows fl reads poison traps ready kept piece inD inLine wrote
  have hex (b : Bool) : ready → poison = b → exec (.matrixOperationComplete p k) s
      = .next ((s.withD p k d pr b).setCore p k (c.mmEnd op rest fl b)).retry := by
    rintro ⟨hm, ha, hl, hp, he, hpr⟩ rfl
    rw [exec_matrixOperationComplete hm ha hl hp he, mmComplete_eq hpr]; rfl
  have hkept (b : Bool) : kept ((s.withD p k d pr b).setCore p k (c.mmEnd op rest fl b)) := by
    refine ⟨withD_setCore_only b _, fun q j h => (core_setCore_other _ _ h).trans (core_withD b q j), ?_⟩
    rw [core_setCore_same]
    exact (Core.mmEnd_faultOnly b).keeps
  have hwrote (x : Core) : wrote ((s.withD p k d pr false).setCore p k x) :=
    ⟨rfl, fun _ => get_withD_clean, fun _ => mem_withD_clean⟩
  refine ⟨fun hr hp ht => ⟨_, hex _ hr hp, _, rfl, hkept _, hwrote _, ?plain⟩,
    fun hr hp ht hf h5 => ⟨_, hex _ hr hp, _, rfl, hkept _, hwrote _, ?trap⟩,
    fun hr hp => ⟨_, hex _ hr hp, _, rfl, hkept _, ?poisoned⟩⟩
  case plain => exact (core_setCore_same _ _ _ _).trans (Core.mmEnd_plain ht)
  case trap =>
    rw [core_setCore_same, Core.mmEnd_trap ht h5 hf]
    exact ⟨rfl, rfl, rfl, rfl⟩
  case poisoned =>
    rw [core_setCore_same]
    obtain ⟨hconsumed, hemitted⟩ := Core.mmEnd_poison_marks (c := c) (op := op) (rest := rest) (fl := fl)
    exact ⟨hconsumed, hemitted, fun l hl => mem_withD_poison.mpr (.inl hl), fun _ => get_withD_poison,
      fun l hl => mem_withD_poison.trans (or_iff_right hl), Core.mmEnd_poison_fault⟩

end Sys2Proof.Machine
end

section
/-! PROOFS. Probes, rate limiters and histograms: what a probe sends, echoes and records, how limiters rise and are freed, and the one
bin of each pool that a sample raises (R302, R306, R307; log 24). -/

namespace Sys2Proof

/-! ## Keys changed in turn -/

theorem Table.get_upd {α : Type} [DecidableEq α] (d : α) (t : Table α) (k j : Nat) (f : α → α) :
    Table.get d (Table.upd d t k f) j = if j = k then f (Table.get d t j) else Table.get d t j := by
  unfold Table.upd
  split
  · next h => rw [h, Table.get_set_same]
  · next h => exact Table.get_set_other d t _ h

/-- Changing each of some distinct keys once changes those keys, each once, and no other. -/
theorem Table.get_foldl_upd {α : Type} [DecidableEq α] (d : α) (f : α → α) (j : Nat) {ks : List Nat} (h : ks.Nodup) (t : Table α) :
    Table.get d (ks.foldl (fun t k => Table.upd d t k f) t) j = if j ∈ ks then f (Table.get d t j) else Table.get d t j := by
  induction ks generalizing t with
  | nil => rfl
  | cons k ks ih =>
    obtain ⟨hk, hks⟩ := List.nodup_cons.mp h
    rw [List.foldl_cons, ih hks, Table.get_upd]
    by_cases e : j = k
    · subst e; simp [hk]
    · simp [e]

end Sys2Proof

namespace Sys2Proof.Machine

/-! ## Packets handed on and taken -/

theorem send_only_fab (s : State) (p : Pkt) : s.send p = { s with fab := (s.send p).fab } := by rw [send_eq]

@[simp] theorem probeSent_send (s : State) (p : Pkt) : (s.send p).fab.probeSent = s.fab.probeSent := by
  rw [send_eq]; split <;> rfl

@[simp] theorem probeCtrl_send (s : State) (p : Pkt) : (s.send p).fab.probeCtrl = s.fab.probeCtrl := by
  rw [send_eq]; split <;> rfl

theorem carries_send (s : State) (p : Pkt) : (s.send p).carries p := by
  rw [send_eq]
  split
  · exact .inr (List.mem_append_right _ (List.mem_singleton_self p))
  · exact .inl (List.mem_append_right _ (List.mem_singleton_self p))

/-- A packet in its turn at its interface is taken by the unit of its class and type (R290, R295). -/
theorem takeDelivered_eq {s : State} {p : Pkt} {cls type : Nat} (hc : p.cls.toNat = cls) (ht : p.type.toNat = type)
    (hm : s.mayDeliver p = true) (f : State → State) : s.takeDelivered p cls type f = .next (f (s.taking p)) :=
  if_pos ⟨hc, ht, hm⟩

/-! ## Probes -/

theorem answerProbe_of_none {s : State} (h : s.mgmt.probe = none) (code : Code) : s.answerProbe code = s := by
  simp only [State.answerProbe, h]

theorem sendProbe_only_fab (s : State) (device : DeviceNo) : s.sendProbe device = { s with fab := (s.sendProbe device).fab } := by
  unfold State.sendProbe; rw [send_only_fab]

section
variable {s : State} {p : Pkt}

/-- The target's timestamp unit sends a probe back with T1 as it came and its own time as T2 and T3 (R307). -/
theorem exec_probe_request (hc : p.cls.toNat = 3) (ht : p.type.toNat = 5) (hm : s.mayDeliver p = true) (he : Pkt.field p 24 0 1 = 0) :
    exec (.probe p) s
      = .next ((s.taking p).send (probePkt s p.src (BitVec.ofNat 64 (Pkt.field p 0 0 64)) s.time s.time true)) := by
  rw [show exec (.probe p) s = execProbe p s from rfl, execProbe, takeDelivered_eq hc ht hm]
  simp only [he, if_true]
  rfl

/-- The echo of the outstanding probe, from the device probed, gives FAB_PROBE_RESULT and sets DONE (R307, log 24). -/
theorem exec_probe_echo (hc : p.cls.toNat = 3) (ht : p.type.toNat = 5) (hm : s.mayDeliver p = true) (he : Pkt.field p 24 0 1 = 1)
    (hs : s.fab.probeSent = some (BitVec.ofNat 64 (Pkt.field p 0 0 64))) (hd : p.src = s.fab.probeCtrl.device)
    (hp : s.mgmt.probe = none) :
    let u := s.taking p
    let t1 : Word := BitVec.ofNat 64 (Pkt.field p 0 0 64)
    let t2 : Word := BitVec.ofNat 64 (Pkt.field p 8 0 64)
    let t3 : Word := BitVec.ofNat 64 (Pkt.field p 16 0 64)
    exec (.probe p) s = .next { u with fab := { u.fab with
      probeCtrl := { s.fab.probeCtrl with done := true }, probeSent := none,
      probeResult := { offset := BitVec.ofInt 32 (((t2 - t1) - (s.time - t3)).toInt / 2),
                       roundTrip := ((s.time - t1) - (t3 - t2)).setWidth 32 } } } := by
  intro u t1 t2 t3
  have sent : u.fab.probeSent = some t1 := hs
  have probed : p.src = u.fab.probeCtrl.device := hd
  have unasked : u.mgmt.probe = none := hp
  rw [show exec (.probe p) s = execProbe p s from rfl, execProbe, takeDelivered_eq hc ht hm]
  simp only [he, Nat.one_ne_zero, sent, probed, bne_self_eq_false, Bool.or_self, Bool.false_eq_true, if_false,
    answerProbe_of_none, unasked, u, t1]
  rfl

/-- An outstanding probe that no message awaits fails when its time is out (R307). -/
theorem exec_probeTimeout (hs : s.fab.probeSent.isSome = true) (hp : s.mgmt.probe = none) :
    exec .probeTimeout s = .next { s with fab := { s.fab with
      probeSent := none, probeCtrl := { s.fab.probeCtrl with failed := true } } } := by
  rw [show exec .probeTimeout s = execProbeTimeout s from rfl]
  simp [execProbeTimeout, hp, Option.isNone_eq_false_iff.mpr hs]

end

/-! ## Histograms -/

/-- The key of the histogram count that a sample of a port's class raises: the bin of its normal pool (R306). -/
def State.sampleKey (s : State) (n : Fin 20) (c : Nat) : Nat :=
  (n.val * 4 + c) * 9 + histBin (s.pool (poolKey n 0 c)).length (poolSize n 0 c)

/-- The keys that one sample raises, in its order: one for each class of each port. -/
def State.sampleKeys (s : State) : List Nat := (List.finRange 20).flatMap fun n => (List.range 4).map (s.sampleKey n)

/-- The state with other histogram counts. -/
def State.withHist (s : State) (h : Table (BitVec 32)) : State := { s with fab := { s.fab with hist := h } }

theorem histBin_lt (o n : Nat) : histBin o n < 8 := by
  unfold histBin; split <;> omega

@[simp] theorem withHist_hist (s : State) (h : Table (BitVec 32)) : (s.withHist h).fab.hist = h := rfl

theorem withHist_only_hist (s : State) (h : Table (BitVec 32)) :
    s.withHist h = { s with fab := { s.fab with hist := (s.withHist h).fab.hist } } := rfl

/-- The sample of one class of one port (R306). -/
def State.sampleClass (s : State) (n : Fin 20) (c : Nat) : State :=
  s.histAdd n c (histBin (s.pool (poolKey n 0 c)).length (poolSize n 0 c))

/-- No count decides which bin a pool falls in. -/
theorem sampleClass_withHist (s : State) (h : Table (BitVec 32)) (n : Fin 20) (c : Nat) :
    (s.withHist h).sampleClass n c = s.withHist (Table.upd 0 h (s.sampleKey n c) satInc) := rfl

/-- A sample raises the count of each of its keys and changes nothing else (R306). -/
theorem exec_histSample (s : State) :
    exec .histSample s = .next (s.withHist (s.sampleKeys.foldl (fun h k => Table.upd 0 h k satInc) s.fab.hist)) := by
  have classes (h : Table (BitVec 32)) (n : Fin 20) :
      (List.range 4).foldl (·.sampleClass n ·) (s.withHist h)
        = s.withHist (((List.range 4).map (s.sampleKey n)).foldl (fun h k => Table.upd 0 h k satInc) h) := by
    rw [List.foldl_map]
    exact List.foldl_hom s.withHist fun h c => sampleClass_withHist s h n c
  rw [State.sampleKeys, List.foldl_flatMap,
    ← List.foldl_hom s.withHist (g₂ := fun t n => (List.range 4).foldl (·.sampleClass n ·) t) classes]
  rfl

/-- A sample raises no count twice: the port and class can be read off a key. -/
theorem nodup_sampleKeys (s : State) : s.sampleKeys.Nodup := by
  have hdiv (n : Fin 20) (c : Nat) : s.sampleKey n c / 9 = n.val * 4 + c := by
    have := histBin_lt (s.pool (poolKey n 0 c)).length (poolSize n 0 c)
    unfold State.sampleKey; omega
  refine List.Pairwise.of_map (S := (· ≠ ·)) (· / 9) (fun _ _ hne heq => hne (congrArg (· / 9) heq)) ?_
  simp only [State.sampleKeys, List.map_flatMap, List.map_map, Function.comp_def, hdiv]
  decide

/-- Of the bins of a port's class, a sample raises the one that its normal pool falls in (R306). -/
theorem mem_sampleKeys {s : State} {n : Fin 20} {c b : Nat} (hc : c < 4) (hb : b < 9) :
    (n.val * 4 + c) * 9 + b ∈ s.sampleKeys ↔ b = histBin (s.pool (poolKey n 0 c)).length (poolSize n 0 c) := by
  simp only [State.sampleKeys, List.mem_flatMap, List.mem_map, List.mem_finRange, true_and, List.mem_range]
  constructor
  · rintro ⟨m, c', hc', h⟩
    have hbin := histBin_lt (s.pool (poolKey m 0 c')).length (poolSize m 0 c')
    unfold State.sampleKey at h
    obtain rfl : m = n := Fin.ext (by omega)
    obtain rfl : c' = c := by omega
    omega
  · rintro rfl
    exact ⟨n, c, hc, rfl⟩

/-- Settles O45: probes by the three things that can become of one, limiters by the list of them, histograms by the keys of a sample. -/
theorem probesLimitersAndHistograms : Obligations.ProbesLimitersAndHistograms := by
  intro p device s u t1 t2 t3
  refine ⟨⟨_, rfl, sendProbe_only_fab s device, carries_send _ _, probeSent_send _ _, probeCtrl_send _ _⟩,
    fun hc ht hm he => ⟨_, exec_probe_request (congrArg BitVec.toNat hc) (congrArg BitVec.toNat ht) hm he, rfl⟩,
    fun hc ht hm he hs hd hp => ⟨_, exec_probe_echo (congrArg BitVec.toNat hc) (congrArg BitVec.toNat ht) hm he hs hd hp,
      rfl, rfl, rfl, rfl, rfl⟩,
    fun hs hp => ⟨_, exec_probeTimeout hs hp, rfl, rfl, rfl, rfl⟩,
    ⟨_, rfl, rfl, List.length_map _, ?rises⟩, ⟨_, rfl, rfl, ?freed⟩, ⟨_, exec_histSample s, withHist_only_hist _ _, ?sampled⟩⟩
  case rises =>
    intro i l hl
    simp only [List.getElem?_map, hl, Option.map_some, beq_iff_eq]
  case freed =>
    intro l
    simp only [List.mem_filter, Bool.not_eq_true', ← Bool.not_eq_true, Bool.and_eq_true, beq_iff_eq]
  case sampled =>
    intro n c b hc hb
    simp only [withHist_hist, Table.get_foldl_upd 0 satInc _ (nodup_sampleKeys s), mem_sampleKeys hc hb]

end Sys2Proof.Machine
end
